-- ==== Sys2Proof/Word.lean ====
section
/-! DEFINITION. The word types of KF1600 (00_scope.md R7, R9 and section 5): every value is unsigned,
and bit p of a value has weight 2^p. -/

namespace Sys2Proof

/-- A `u64`: a lane, a round constant, a data operand (00 section 5). -/
abbrev Word := BitVec 64

/-- A `u8`: a ROM entry, a digest byte, the field `IMM` (00 section 5). -/
abbrev Byte := BitVec 8

/-- A command word `cmd[15:0]` (30 R50). -/
abbrev CmdWord := BitVec 16

end Sys2Proof
end

