-- ==== Sys2Proof/Syntax.lean ====
section
/-! DEFINITION. The twelve commands of KF1600, one constructor per row of the opcode map (30_encoding.md R57).
The 64-bit data operand of ROTL and WRLANE is not part of the command word: it is sampled from the port
`wdata` with the word (20 R46, 30 R50) and is found in the state. -/

namespace Sys2Proof

/-- The commands (30 R57).  `n`, `r` and `i` are the 8 bits of `IMM` (30 R53 to R55). -/
inductive Instr where
  /-- ROTL n: rotate the data operand left (40 R72). -/
  | rotl (n : Byte)
  /-- RCONST r: the round constant of round `r` (41 R81). -/
  | rconst (r : Byte)
  /-- THETA (42 R86). -/
  | theta
  /-- RHO (42 R88). -/
  | rho
  /-- PI (42 R91). -/
  | pi
  /-- CHI (42 R94). -/
  | chi
  /-- IOTA r (42 R96). -/
  | iota (r : Byte)
  /-- ROUND r: one round with the constant of round `r` (42 R98). -/
  | round (r : Byte)
  /-- PERMUTE: the 24 rounds (42 R100). -/
  | permute
  /-- EXTRACT256: serialise lanes 0 to 3 (43 R107). -/
  | extract256
  /-- WRLANE i: write lane `i` with the data operand (44 R110). -/
  | wrlane (i : Byte)
  /-- RDLANE i: read lane `i` (44 R111). -/
  | rdlane (i : Byte)
  deriving DecidableEq, Repr

/-- The three formats (30 R52). -/
inductive Format where
  /-- `N`: `IMM` must be 0, `wdata` is ignored. -/
  | n
  /-- `I`: `IMM` is an operand, `wdata` is ignored. -/
  | i
  /-- `ID`: `IMM` and `wdata` are operands. -/
  | id
  deriving DecidableEq, Repr

end Sys2Proof
end

