-- ==== Sys2Proof/WellFormed.lean ====
section
/-! DEFINITION. Well-formed commands: those whose operand is VALID in the sense of 30_encoding.md R53 to R55.
An ill-formed command is a legal encoding of a failing command (30 R58): it decodes, and it faults when it is
executed. So decoding and encoding are stated for every command, well formed or not. -/

namespace Sys2Proof

/-- The operand's validity: a round index is at most 23 (30 R53), a lane index at most 24 (30 R54), every rotate
amount is valid (30 R55).  DESIGN CHOICE, safe: the spec's word is `valid`, log 16. -/
def Instr.wellFormed : Instr → Bool
  | .rconst r | .iota r | .round r => r.toNat ≤ 23
  | .wrlane i | .rdlane i => i.toNat ≤ 24
  | .rotl _ | .theta | .rho | .pi | .chi | .permute | .extract256 => true

/-- `Instr.wellFormed` as a proposition. -/
abbrev Instr.WellFormed (i : Instr) : Prop := i.wellFormed = true

end Sys2Proof
end

