-- ==== Sys2Proof/Decode.lean ====
section
/-! DEFINITION. Decoding and encoding of the command word (30_encoding.md R50 to R59). -/

namespace Sys2Proof

/-- Why a word is illegal, by the clause of 30 R58 that names it.  All three are one fault, `ILLEGAL_CMD` (60 R125). -/
inductive DecodeError where
  /-- Clause 1: `OP` is 0x0, 0xD, 0xE or 0xF. -/
  | reservedOp (op : BitVec 4)
  /-- Clause 2: `RSV` is not 0. -/
  | reservedBits (rsv : BitVec 4)
  /-- Clause 3: `IMM` is not 0 in format `N`. -/
  | immediateNotZero (imm : Byte)
  deriving DecidableEq, Repr

/-- What the decoder makes of a word: a command, or a rejection by name. -/
inductive Decoded where
  /-- The word is this command. -/
  | instr (i : Instr)
  /-- The word is illegal (30 R58). -/
  | illegal (e : DecodeError)
  deriving DecidableEq, Repr

/-- The field `OP` = c[15:12] (30 R51). -/
def opField (c : CmdWord) : BitVec 4 := c.extractLsb' 12 4

/-- The field `RSV` = c[11:8] (30 R51). -/
def rsvField (c : CmdWord) : BitVec 4 := c.extractLsb' 8 4

/-- The field `IMM` = c[7:0] (30 R51). -/
def immField (c : CmdWord) : Byte := c.extractLsb' 0 8

/-- A command of format `N`: legal only with `IMM` = 0 (30 R52, R58 clause 3). -/
def decodeNoOperand (i : Instr) (imm : Byte) : Decoded :=
  if imm = 0 then .instr i else .illegal (.immediateNotZero imm)

/-- The opcode map on `OP` and `IMM`, for a word whose `RSV` is 0 (30 R57; R58 clauses 1 and 3). -/
def decodeOp (op : BitVec 4) (imm : Byte) : Decoded :=
  match op.toNat with
  | 0x1 => .instr (.rotl imm)
  | 0x2 => .instr (.rconst imm)
  | 0x3 => decodeNoOperand .theta imm
  | 0x4 => decodeNoOperand .rho imm
  | 0x5 => decodeNoOperand .pi imm
  | 0x6 => decodeNoOperand .chi imm
  | 0x7 => .instr (.iota imm)
  | 0x8 => .instr (.round imm)
  | 0x9 => decodeNoOperand .permute imm
  | 0xA => decodeNoOperand .extract256 imm
  | 0xB => .instr (.wrlane imm)
  | 0xC => .instr (.rdlane imm)
  | _ => .illegal (.reservedOp op)

/-- The decoder, total on the 65 536 words (30 R51, R57, R58). -/
def decode (c : CmdWord) : Decoded :=
  if rsvField c = 0 then decodeOp (opField c) (immField c) else .illegal (.reservedBits (rsvField c))

/-- `OP` of a command (30 R57). -/
def Instr.op : Instr → BitVec 4
  | .rotl _ => 0x1
  | .rconst _ => 0x2
  | .theta => 0x3
  | .rho => 0x4
  | .pi => 0x5
  | .chi => 0x6
  | .iota _ => 0x7
  | .round _ => 0x8
  | .permute => 0x9
  | .extract256 => 0xA
  | .wrlane _ => 0xB
  | .rdlane _ => 0xC

/-- `IMM` of a command: its operand, or 0 in format `N` (30 R50, R52). -/
def Instr.imm : Instr → Byte
  | .rotl v | .rconst v | .iota v | .round v | .wrlane v | .rdlane v => v
  | .theta | .rho | .pi | .chi | .permute | .extract256 => 0

/-- The format of a command (30 R52). -/
def Instr.format : Instr → Format
  | .theta | .rho | .pi | .chi | .permute | .extract256 => .n
  | .rconst _ | .iota _ | .round _ | .rdlane _ => .i
  | .rotl _ | .wrlane _ => .id

/-- `match` of a command's row (30 R57). -/
def Instr.matchWord : Instr → CmdWord
  | .rotl _ => 0x1000
  | .rconst _ => 0x2000
  | .theta => 0x3000
  | .rho => 0x4000
  | .pi => 0x5000
  | .chi => 0x6000
  | .iota _ => 0x7000
  | .round _ => 0x8000
  | .permute => 0x9000
  | .extract256 => 0xA000
  | .wrlane _ => 0xB000
  | .rdlane _ => 0xC000

/-- `mask` of a command's row: the whole word in format `N`, else `OP` and `RSV` (30 R57). -/
def Instr.maskWord (i : Instr) : CmdWord :=
  match i.format with
  | .n => 0xFFFF
  | .i | .id => 0xFF00

/-- The encoder: `OP`, `RSV` = 0, `IMM` (30 R50, R57). -/
def encode (i : Instr) : CmdWord := i.op ++ (0 : BitVec 4) ++ i.imm

/-- The instruction a decoding holds, if any. -/
def Decoded.toInstr? : Decoded → Option Instr
  | .instr i => some i
  | .illegal _ => none

/-- The command word whose low `nbits` bits are `w` and whose other bits are 0.  The word is the value of the port
`cmd`, so no byte order arises (20 R34, R46).  DESIGN CHOICE, safe: log 17. -/
def tableWord (nbits w : Nat) : CmdWord := BitVec.ofNat 16 (w % 2 ^ nbits)

/-- The command the decoder reads from a row of the opcode table.  Every row has 16 bits (30 R50), so more bits
than 16 are no command word. -/
def decodeTableWord (nbits w : Nat) : Option Instr :=
  if nbits ≤ 16 then (decode (tableWord nbits w)).toInstr? else none

end Sys2Proof
end

