-- ==== Sys2Proof/Config.lean ====
section
/-! DEFINITION. What the spec leaves open and the model takes as a value nobody knows (00_scope.md R8,
92_eei_decisions.md, open parameters). -/

namespace Sys2Proof

/-- `RESET_LANES` (10 R22): the value of lane `i` after a reset, where `n` counts the resets since power-on.
A free value: the constant has no body, so a claim that depends on it holds for every value.  The counter makes
the lanes of two resets unrelated (95 P4, step 31).  DESIGN CHOICE of form, safe for one run: log 1. -/
opaque Config.resetLane (n : Nat) (i : Fin 25) : Word

end Sys2Proof
end

