-- ==== Sys2Proof/Machine/State.lean ====
section
/-! DEFINITION. The state of one KF1600 instance at transaction level (10_state.md), what the host does to it and
receives from it (20_memory.md R46, R47), the reasons a step can stop, and the state after reset (10 R22). -/

namespace Sys2Proof.Machine

/-- The lane file: 25 registers of 64 bits, lane (x,y) at index x + 5y (10 R10, R11). -/
abbrev Lanes := Vector Word 25

/-- The values of `CAUSE` (60 R122). -/
inductive Cause where
  /-- Code 0: `FAULT` = 0. -/
  | noFault
  /-- Code 1, `RC_RANGE`: a round index above 23. -/
  | rcRange
  /-- Code 2, `LANE_RANGE`: a lane index above 24. -/
  | laneRange
  /-- Code 3, `ILLEGAL_CMD`: an illegal command word. -/
  | illegalCmd
  deriving DecidableEq, Repr

/-- The response of one transaction (20 R47).  A response carries a value exactly where the spec gives it one
(93 U7). -/
inductive Response where
  /-- `respond(none)`. -/
  | noData
  /-- `respond(data)`: the value of the port `rdata`. -/
  | data (v : Word)
  /-- `respond(digest)`: the value of the port `digest`, 256 bits (43 R105, R107). -/
  | digest (v : BitVec 256)
  /-- `Fault(cause)` (60 R128): no value goes with it. -/
  | fault (c : Cause)
  deriving DecidableEq, Repr

/-- What the host does next (20 R46, R47; 70 R140, R141). -/
inductive HostEvent where
  /-- The host offers a command word and a data operand (`cmd_valid`, `cmd`, `wdata`). -/
  | command (c : CmdWord) (d : Word)
  /-- The host applies reset at a command boundary (70 R140). -/
  | reset
  /-- The host offers a command and applies reset before its response (70 R141). -/
  | abandoned (c : CmdWord) (d : Word)
  deriving DecidableEq, Repr

/-- The state.  `lanes` to `busy` are the spec's (10 R10 to R17, R22); the rest is the model's own: no command
reads `inputs`, `responses` or `resets`, and `wdata` is the operand of the command in progress. -/
structure State where
  /-- `A[0]` to `A[24]` (10 R10). -/
  lanes : Lanes
  /-- `RND`, the round counter, 0 at every command boundary (10 R14). -/
  rnd : BitVec 5
  /-- `FAULT` (10 R15). -/
  fault : Bool
  /-- `CAUSE` (10 R16). -/
  cause : Cause
  /-- `BUSY` (10 R17): set when a command is accepted, cleared by its response.  log 6. -/
  busy : Bool
  /-- The data operand sampled with the command word (20 R46).  log 4. -/
  wdata : Word
  /-- What the host does, the next event first.  log 3. -/
  inputs : List HostEvent
  /-- The responses given so far, oldest first.  log 5. -/
  responses : List Response
  /-- How many resets there have been since power-on.  log 2. -/
  resets : Nat
  deriving DecidableEq, Repr

/-- Why a step stops.  Both are raised by the acceptance of a command (`Sys2Proof.Machine.takeEvent`), never by a
command's meaning: a command's own faults are the entry of 60 R128, a next state. -/
inductive Fault where
  /-- A command is offered while `FAULT` = 1: there is no transaction (60 R129; 93 U8, `stuck`).  Raised by
  `takeEvent`.  Safe: the hardware stays as it is for ever, and the model stops.  log 8. -/
  | halted
  /-- A command is offered while `BUSY` = 1 and `FAULT` = 0: it is not accepted (20 R46, R47; 93 U9).  Raised by
  `takeEvent`, in no state at a command boundary.  Safe: the model has no such run.  log 9. -/
  | busy
  deriving DecidableEq, Repr

/-- Why there is no meaning. -/
inductive Refusal where
  /-- `exec` has no meaning for the command yet.  Raised by `exec` alone; safe.  No command is refused so. -/
  | notModelled (mnemonic : String)
  deriving DecidableEq, Repr

/-- The lane file whose lane `i` is `f i`, written out so that it evaluates lane by lane. -/
def buildLanes (f : Fin 25 → Word) : Lanes :=
  #v[f 0, f 1, f 2, f 3, f 4, f 5, f 6, f 7, f 8, f 9, f 10, f 11, f 12, f 13, f 14, f 15, f 16, f 17, f 18, f 19,
     f 20, f 21, f 22, f 23, f 24]

/-- The 25 lanes after reset number `n`: unspecified (10 R22). -/
def resetLanes (n : Nat) : Lanes := buildLanes (Config.resetLane n)

/-- The state after power-on reset (10 R22, 70 R140).  The lanes are free values (log 1).  `wdata`, `inputs`,
`responses` and `resets` are the model's own: DESIGN CHOICE, logs 2 to 5. -/
def State.reset : State where
  lanes := resetLanes 0
  rnd := 0
  fault := false
  cause := .noFault
  busy := false
  wdata := 0
  inputs := []
  responses := []
  resets := 0

end Sys2Proof.Machine
end

