-- ==== Sys2Proof/Machine/Flags.lean ====
section
/-! DEFINITION. The status outputs.  No command computes a carry, zero, sign or overflow flag (10_state.md R17); what
there is of flags is `STATUS` and the port outputs that follow from the state or from a response (20_memory.md R46). -/

namespace Sys2Proof.Machine

/-- The 2-bit code of a cause (60 R122). -/
def Cause.code : Cause → BitVec 2
  | .noFault => 0
  | .rcRange => 1
  | .laneRange => 2
  | .illegalCmd => 3

/-- `STATUS`: bits 7:4 zero, 3:2 `CAUSE`, 1 `FAULT`, 0 `BUSY` (10 R17). -/
def State.status (s : State) : BitVec 8 :=
  (0 : BitVec 4) ++ s.cause.code ++ BitVec.ofBool s.fault ++ BitVec.ofBool s.busy

/-- `cmd_ready`: 1 exactly when `BUSY` = 0 and `FAULT` = 0 (20 R46). -/
def State.cmdReady (s : State) : Bool := !s.busy && !s.fault

/-- `rsp_fault` of a response (20 R46). -/
def Response.rspFault : Response → Bool
  | .fault _ => true
  | .noData | .data _ | .digest _ => false

/-- The value of the port `rdata`, where the response carries one (20 R46, 93 U7). -/
def Response.rdata? : Response → Option Word
  | .data v => some v
  | .noData | .digest _ | .fault _ => none

/-- The value of the port `digest`, where the response carries one (20 R46, 93 U7). -/
def Response.digestBus? : Response → Option (BitVec 256)
  | .digest v => some v
  | .noData | .data _ | .fault _ => none

end Sys2Proof.Machine
end

