-- ==== Sys2Proof/Machine/Ops.lean ====
section
/-! DEFINITION. The shared operations on the state: lane access, the response, the fault entry (60_exceptions.md
R128), reset (70_reset_and_hazards.md R140, R141) and the acceptance of what the host does next (20_memory.md R47). -/

namespace Sys2Proof.Machine

/-- The lane index of column `x`, row `y` (10 R11). -/
def laneIndex (x y : Fin 5) : Fin 25 := ⟨x.val + 5 * y.val, by omega⟩

/-- The column of a lane (10 R11). -/
def column (i : Fin 25) : Fin 5 := ⟨i.val % 5, by omega⟩

/-- The row of a lane (10 R11). -/
def row (i : Fin 25) : Fin 5 := ⟨i.val / 5, by omega⟩

/-- Entry `i` of a fixed number of entries, read along the list, which evaluates quickly.  The index is in range by its
type, so the default is never read: `pick_eq` says that this is `v[i]`. -/
def pick {α : Type} [Inhabited α] {n : Nat} (v : Vector α n) (i : Fin n) : α := v.toArray.toList.getD i.val default

/-- Replace the whole lane file. -/
def State.setLanes (s : State) (A : Lanes) : State := { s with lanes := A }

/-- `A[i] <- v` (00 section 5). -/
def State.setLane (s : State) (i : Fin 25) (v : Word) : State :=
  { s with lanes := s.lanes.set i.val v i.isLt }

/-- `respond(r)`: the command in progress ends with this response (20 R47). -/
def State.respond (s : State) (r : Response) : State :=
  { s with responses := s.responses ++ [r], busy := false }

/-- `raise Fault(cause)`: the fault entry (60 R128).  Only `FAULT` and `CAUSE` change, and the response is the
fault. -/
def State.raise (s : State) (c : Cause) : State :=
  { s with fault := true, cause := c }.respond (.fault c)

/-- A command that ends with a response. -/
def finish (s : State) (r : Response) : Host.Outcome State Fault Refusal := .next (s.respond r)

/-- A command that ends in the fault entry: a next state (log 7). -/
def trap (s : State) (c : Cause) : Host.Outcome State Fault Refusal := .next (s.raise c)

/-- An illegal word, whatever clause of 30 R58 names it: `ILLEGAL_CMD` (60 R125). -/
def execIllegal (_ : DecodeError) (s : State) : Host.Outcome State Fault Refusal := trap s .illegalCmd

/-- Acceptance: `cmd_ready` is 1, the data operand is sampled and the command is in progress (20 R46, R47). -/
def State.accept (s : State) (d : Word) : State := { s with wdata := d, busy := true }

/-- Reset (70 R140, R141; 10 R22): the block's state is the reset state with fresh lanes; a command in progress
gives no response.  What the host is going to do and what it has received are the host's. -/
def State.applyReset (s : State) : State :=
  { State.reset with
    lanes := resetLanes (s.resets + 1)
    resets := s.resets + 1
    inputs := s.inputs
    responses := s.responses }

/-- What taking the host's next event leads to. -/
inductive Taken where
  /-- Nothing is pending: the block holds its state (60 R138). -/
  | idle
  /-- Reset is applied. -/
  | restarted (s : State)
  /-- The command word is accepted and is to be executed in this state. -/
  | accepted (c : CmdWord) (s : State)
  /-- The command is not accepted. -/
  | blocked (f : Fault)
  deriving DecidableEq, Repr

/-- Take the host's next event (20 R46, R47; 60 R129; 70 R140, R141).  A command is accepted when
`cmd_ready` is 1; reset needs no readiness. -/
def takeEvent (s : State) : Taken :=
  match s.inputs with
  | [] => .idle
  | .reset :: rest | .abandoned _ _ :: rest => .restarted { s with inputs := rest }.applyReset
  | .command c d :: rest =>
    if s.cmdReady then .accepted c ({ s with inputs := rest }.accept d)
    else .blocked (if s.fault then .halted else .busy)

end Sys2Proof.Machine
end

