-- ==== Sys2Proof/Machine/Operands.lean ====
section
/-! DEFINITION. The operand forms (30_encoding.md R53 to R56). -/

namespace Sys2Proof.Machine

/-- The round index in `IMM`: unsigned, valid to 23, never reduced (30 R53). -/
def roundIndex? (imm : Byte) : Option (Fin 24) :=
  if h : imm.toNat < 24 then some ⟨imm.toNat, h⟩ else none

/-- The lane index in `IMM`: unsigned, valid to 24 (30 R54). -/
def laneIndex? (imm : Byte) : Option (Fin 25) :=
  if h : imm.toNat < 25 then some ⟨imm.toNat, h⟩ else none

/-- The rotate amount in `IMM`: `n mod 64`, that is `IMM[5:0]` (30 R55). -/
def rotateAmount (imm : Byte) : Nat := imm.toNat % 64

/-- The data operand, as it stands (30 R56). -/
def dataOperand (s : State) : Word := s.wdata

/-- A command on a round index: `RC_RANGE` if the index is out of range, before anything else (60 R123, R127, R128). -/
def withRound (imm : Byte) (s : State) (run : Fin 24 → Host.Outcome State Fault Refusal) :
    Host.Outcome State Fault Refusal :=
  match roundIndex? imm with
  | some r => run r
  | none => trap s .rcRange

/-- A command on a lane index: `LANE_RANGE` if the index is out of range, before anything else (60 R124, R127, R128). -/
def withLane (imm : Byte) (s : State) (run : Fin 25 → Host.Outcome State Fault Refusal) :
    Host.Outcome State Fault Refusal :=
  match laneIndex? imm with
  | some i => run i
  | none => trap s .laneRange

end Sys2Proof.Machine
end

