-- ==== Sys2Proof/Machine/Digest.lean ====
section
/-! DEFINITION. DigestExtractor and the command EXTRACT256 (43_digest_extract.md), and the byte view of the lane
file (20_memory.md R34, R35). -/

namespace Sys2Proof.Machine

/-- Byte `k` of a lane: bits 8k+7 to 8k (43 R106). -/
def laneByte (v : Word) (k : Nat) : Byte := v.extractLsb' (8 * k) 8

/-- `BSWAP64(v)`: the least significant byte of `v` in the most significant place (43 R105). -/
def bswap64 (v : Word) : Word :=
  laneByte v 0 ++ laneByte v 1 ++ laneByte v 2 ++ laneByte v 3 ++
    laneByte v 4 ++ laneByte v 5 ++ laneByte v 6 ++ laneByte v 7

/-- `V`, the bus `digest[255:0]`: lane 0 in the most significant 64 bits (43 R105, R107). -/
def extract (A : Lanes) : BitVec 256 := bswap64 A[0] ++ bswap64 A[1] ++ bswap64 A[2] ++ bswap64 A[3]

/-- Digest byte `k` of the bus: V[255-8k : 248-8k] (43 R105, R107). -/
def digestByte (v : BitVec 256) (k : Fin 32) : Byte := v.extractLsb' (248 - 8 * k.val) 8

/-- The 32 digest bytes in order (43 R105). -/
def digestBytes (v : BitVec 256) : Vector Byte 32 := Vector.ofFn (digestByte v)

/-- State byte `j` in 0 .. 199: the absorber's byte view of the lane file, which no command uses (20 R35; PRESUMED by
the spec itself, 93 G6: log 21). -/
def stateByte (A : Lanes) (j : Fin 200) : Byte :=
  laneByte (A[j.val / 8]'(by omega)) (j.val % 8)

/-- EXTRACT256: answer the digest of the lanes as they are (43 R107). -/
def execExtract256 (s : State) : Host.Outcome State Fault Refusal := finish s (.digest (extract s.lanes))

end Sys2Proof.Machine
end

