-- ==== Sys2Proof/Machine/LaneAccess.lean ====
section
/-! DEFINITION. Host access to the lane file: WRLANE and RDLANE (44_lane_access.md). -/

namespace Sys2Proof.Machine

/-- WRLANE i, value; `LANE_RANGE` above 24, nothing then written (44 R110). -/
def execWrlane (i : Byte) (s : State) : Host.Outcome State Fault Refusal :=
  withLane i s fun k => finish (s.setLane k (dataOperand s)) .noData

/-- RDLANE i; `LANE_RANGE` above 24 (44 R111). -/
def execRdlane (i : Byte) (s : State) : Host.Outcome State Fault Refusal :=
  withLane i s fun k => finish s (.data (pick s.lanes k))

end Sys2Proof.Machine
end

