-- ==== Sys2Proof/Machine/Rotate.lean ====
section
/-! DEFINITION. RotateLeft64, the 64-bit rotator, and the command ROTL (40_rotate_left64.md). -/

namespace Sys2Proof.Machine

/-- `ROTL64(v, n)`: the formula of 40 R70 at `n mod 64`, and the identity where that is 0 (40 R71). -/
def rotl64 (v : Word) (n : Nat) : Word :=
  if n % 64 = 0 then v else (v <<< (n % 64)) ||| (v >>> (64 - n % 64))

/-- ROTL n, value: answer the rotated data operand (40 R72). -/
def execRotl (n : Byte) (s : State) : Host.Outcome State Fault Refusal :=
  finish s (.data (rotl64 (dataOperand s) (rotateAmount n)))

end Sys2Proof.Machine
end

