-- ==== Sys2Proof/Machine/RoundConstant.lean ====
section
/-! DEFINITION. RoundConstantTable: the packed ROM, its decoder, the lookup, and the command RCONST
(41_round_constant.md); and the generator the constants come from, which no command uses. -/

namespace Sys2Proof.Machine

/-- The 24 packed bytes (41 R78).  PRESUMED by the spec itself (93 G1): log 14. -/
def rom : Vector Byte 24 :=
  #v[0x01, 0x1A, 0x5E, 0x70, 0x1F, 0x21, 0x79, 0x55, 0x0E, 0x0C, 0x35, 0x26,
     0x3F, 0x4F, 0x5D, 0x53, 0x52, 0x48, 0x16, 0x66, 0x79, 0x58, 0x21, 0x74]

/-- Bit `j` of a packed byte as bit `2^j - 1` of the constant (41 R77). -/
def rcBit (b : Byte) (j : Nat) : Word := (BitVec.ofBool (b.getLsbD j)).setWidth 64 <<< (2 ^ j - 1)

/-- `RCDECODE(b)`: bits 0 to 6 of the byte, bit 7 ignored (41 R77). -/
def rcDecode (b : Byte) : Word :=
  rcBit b 0 ||| rcBit b 1 ||| rcBit b 2 ||| rcBit b 3 ||| rcBit b 4 ||| rcBit b 5 ||| rcBit b 6

/-- `RC(r)` for an index in range (41 R80). -/
def roundConstant (r : Fin 24) : Word := rcDecode (pick rom r)

/-- RCONST r: answer the round constant of round `r`; `RC_RANGE` above 23 (41 R81). -/
def execRconst (r : Byte) (s : State) : Host.Outcome State Fault Refusal :=
  withRound r s fun k => finish s (.data (roundConstant k))

/-! ## The generator

41 R83 gives it for checking the tables only, from general knowledge by the spec's own mark (93 G3; log 14).  The block
contains no generator: no field of State and no command reads the definitions below. -/

/-- One step of the 8-bit register `R`: `R <- R << 1; if R[8] = 1 then R <- R XOR 0x171` (41 R83).  Bit 8 is the bit
shifted out, and the reduction clears it. -/
def lfsrStep (r : Byte) : Byte :=
  let shifted : BitVec 9 := r.setWidth 9 <<< 1
  (if shifted.getLsbD 8 then shifted ^^^ 0x171 else shifted).setWidth 8

/-- The register after `t` steps from 0x01 (41 R83). -/
def lfsrRegister : Nat → Byte
  | 0 => 0x01
  | t + 1 => lfsrStep (lfsrRegister t)

/-- `rc(t)`, the output `R[0]` after `t` steps (41 R83). -/
def lfsrBit (t : Nat) : Bool := (lfsrRegister t).getLsbD 0

end Sys2Proof.Machine
end

