-- ==== Sys2Proof/Machine/Permutation.lean ====
section
/-! DEFINITION. PermutationEngine: Theta, Rho, Pi, Chi, Iota, the round, the permutation and their seven commands
(42_permutation.md).  The transforms are written out of place, so that every read sees the lanes as they were
before the transform (70 R144 to R146); the in-place forms of 42 R90 and R93 stand beside them. -/

namespace Sys2Proof.Machine

/-- Five words, one for each column. -/
def buildColumns (f : Fin 5 → Word) : Vector Word 5 := #v[f 0, f 1, f 2, f 3, f 4]

/-- Theta's `C`: the parity of each column (42 R85). -/
def thetaC (A : Lanes) : Vector Word 5 :=
  buildColumns fun x =>
    pick A (laneIndex x 0) ^^^ pick A (laneIndex x 1) ^^^ pick A (laneIndex x 2) ^^^ pick A (laneIndex x 3) ^^^
      pick A (laneIndex x 4)

/-- Theta's `D`: `D[x]` = ROTL64(C[(x+1) mod 5], 1) XOR C[(x+4) mod 5] (42 R85).  Addition in `Fin 5` is mod 5. -/
def thetaD (C : Vector Word 5) : Vector Word 5 :=
  buildColumns fun x => rotl64 (pick C (x + 1)) 1 ^^^ pick C (x + 4)

/-- Theta's last line: every lane XOR `D` of its column (42 R85). -/
def thetaApply (A : Lanes) (D : Vector Word 5) : Lanes := buildLanes fun i => pick A i ^^^ pick D (column i)

/-- `THETA(A)`: all `C` from the lanes, all `D` from those `C`, then the lanes (42 R85, 70 R144). -/
def theta (A : Lanes) : Lanes := thetaApply A (thetaD (thetaC A))

/-- The Rho offsets by lane index; lane 0 has none, which is rotation by 0 (42 R87). -/
def rhoOffset : Vector Nat 25 :=
  #v[0, 1, 62, 28, 27, 36, 44, 6, 55, 20, 3, 10, 43, 25, 39, 41, 45, 15, 21, 8, 18, 2, 61, 56, 14]

/-- `RHO(A)` (42 R87). -/
def rho (A : Lanes) : Lanes := buildLanes fun i => rotl64 (pick A i) (pick rhoOffset i)

/-- Pi's `SRC[k]`: the lane that the new value of lane `k` comes from.  In coordinates the source of (x,y) is
((x + 3y) mod 5, x) (42 R89). -/
def piSource (k : Fin 25) : Fin 25 := laneIndex (column k + 3 * row k) (column k)

/-- `PI(A)` (42 R89). -/
def pi (A : Lanes) : Lanes := buildLanes fun k => pick A (piSource k)

/-- `CHI(A)` (42 R92). -/
def chi (A : Lanes) : Lanes :=
  buildLanes fun i =>
    pick A i ^^^ (~~~(pick A (laneIndex (column i + 1) (row i))) &&& pick A (laneIndex (column i + 2) (row i)))

/-- `IOTA(A, r)` (42 R95). -/
def iota (A : Lanes) (r : Fin 24) : Lanes := A.set 0 (A[0] ^^^ roundConstant r)

/-- `ROUND(A, r)` (42 R97). -/
def roundLanes (A : Lanes) (r : Fin 24) : Lanes := iota (chi (pi (rho (theta A)))) r

/-- `PERMUTE(A)`: rounds 0 to 23 in increasing order (42 R99). -/
def permuteLanes (A : Lanes) : Lanes := (List.finRange 24).foldl roundLanes A

/-- One assignment `A[k] <- A[j]`. -/
def copyLane (A : Lanes) (k j : Fin 25) : Lanes := A.set k.val A[j] k.isLt

/-- The cycle of 42 R90, from lane 1 backwards: each lane is overwritten from the next one in the list. -/
def piCycle : List (Fin 25) :=
  [1, 6, 9, 22, 14, 20, 2, 12, 13, 19, 23, 15, 4, 24, 21, 8, 16, 5, 3, 18, 17, 11, 7, 10]

/-- The assignments along a cycle, in order; the last lane takes the saved value. -/
def copyAlong (A : Lanes) (saved : Word) : List (Fin 25) → Lanes
  | [] => A
  | [k] => A.set k.val saved k.isLt
  | k :: j :: rest => copyAlong (copyLane A k j) saved (j :: rest)

/-- In-place Pi with one temporary (42 R90, 70 R145). -/
def piInPlace (A : Lanes) : Lanes := copyAlong A A[1] piCycle

/-- One assignment of in-place Chi: `A[k] <- A[k] XOR ((NOT p) AND q)` (42 R93). -/
def chiAssign (A : Lanes) (k : Fin 25) (p q : Word) : Lanes := A.set k.val (A[k] ^^^ (~~~p &&& q)) k.isLt

/-- In-place Chi on the row `y` with two temporaries, lanes in increasing order (42 R93, 70 R146). -/
def chiRowInPlace (A : Lanes) (y : Fin 5) : Lanes :=
  let t0 := A[laneIndex 0 y]
  let t1 := A[laneIndex 1 y]
  let A := chiAssign A (laneIndex 0 y) A[laneIndex 1 y] A[laneIndex 2 y]
  let A := chiAssign A (laneIndex 1 y) A[laneIndex 2 y] A[laneIndex 3 y]
  let A := chiAssign A (laneIndex 2 y) A[laneIndex 3 y] A[laneIndex 4 y]
  let A := chiAssign A (laneIndex 3 y) A[laneIndex 4 y] t0
  chiAssign A (laneIndex 4 y) t0 t1

/-- In-place Chi, row by row (42 R93). -/
def chiInPlace (A : Lanes) : Lanes := (List.finRange 5).foldl chiRowInPlace A

/-- THETA (42 R86). -/
def execTheta (s : State) : Host.Outcome State Fault Refusal := finish (s.setLanes (theta s.lanes)) .noData

/-- RHO (42 R88). -/
def execRho (s : State) : Host.Outcome State Fault Refusal := finish (s.setLanes (rho s.lanes)) .noData

/-- PI (42 R91). -/
def execPi (s : State) : Host.Outcome State Fault Refusal := finish (s.setLanes (pi s.lanes)) .noData

/-- CHI (42 R94). -/
def execChi (s : State) : Host.Outcome State Fault Refusal := finish (s.setLanes (chi s.lanes)) .noData

/-- IOTA r; `RC_RANGE` above 23, lane 0 then unchanged (42 R96). -/
def execIota (r : Byte) (s : State) : Host.Outcome State Fault Refusal :=
  withRound r s fun k => finish (s.setLanes (iota s.lanes k)) .noData

/-- ROUND r; `RC_RANGE` above 23, before Theta starts (42 R98). -/
def execRound (r : Byte) (s : State) : Host.Outcome State Fault Refusal :=
  withRound r s fun k => finish (s.setLanes (roundLanes s.lanes k)) .noData

/-- One turn of PERMUTE's loop: round `r`, then `RND` advances by 1, or returns to 0 after round 23 (42 R100,
10 R14).  `RND` holds `r` when the turn of round `r` begins. -/
def permuteTurn (s : State) (r : Fin 24) : State :=
  { s with lanes := roundLanes s.lanes r, rnd := if r.val = 23 then 0 else s.rnd + 1 }

/-- PERMUTE (42 R100). -/
def execPermute (s : State) : Host.Outcome State Fault Refusal :=
  finish ((List.finRange 24).foldl permuteTurn { s with rnd := 0 }) .noData

end Sys2Proof.Machine
end

