-- ==== Sys2Proof/Machine/Dispatch.lean ====
section
/-! DEFINITION. exec: the meaning of each command, one arm per row of the opcode map (30_encoding.md R57).  exec is
the meaning of an ACCEPTED command (20_memory.md R47); whether a command is accepted is `takeEvent`'s. -/

namespace Sys2Proof.Machine

def exec (i : Instr) (s : State) : Host.Outcome State Fault Refusal :=
  match i with
  | .rotl n => Sys2Proof.Machine.execRotl n s
  | .rconst r => Sys2Proof.Machine.execRconst r s
  | .theta => Sys2Proof.Machine.execTheta s
  | .rho => Sys2Proof.Machine.execRho s
  | .pi => Sys2Proof.Machine.execPi s
  | .chi => Sys2Proof.Machine.execChi s
  | .iota r => Sys2Proof.Machine.execIota r s
  | .round r => Sys2Proof.Machine.execRound r s
  | .permute => Sys2Proof.Machine.execPermute s
  | .extract256 => Sys2Proof.Machine.execExtract256 s
  | .wrlane k => Sys2Proof.Machine.execWrlane k s
  | .rdlane k => Sys2Proof.Machine.execRdlane k s

end Sys2Proof.Machine
end

