-- ==== Sys2Proof/Machine/Step.lean ====
section
/-! DEFINITION. One step is one event of the host (20_memory.md R47; log 3): a transaction, a reset, or nothing. -/

namespace Sys2Proof.Machine

/-- Execute an accepted word: the command it decodes to, or `ILLEGAL_CMD` (30 R57, R58; 60 R127). -/
def runWord (c : CmdWord) (s : State) : Host.Outcome State Fault Refusal :=
  match decode c with
  | .instr i => exec i s
  | .illegal e => execIllegal e s

/-- One step. -/
def step (s : State) : Host.Outcome State Fault Refusal :=
  match takeEvent s with
  | .idle => .next s
  | .restarted t => .next t
  | .accepted c t => runWord c t
  | .blocked f => .fault f

/-- The state with a command word put where the next step takes its command: at the head of the host's events, with
data operand 0.  The block takes no program from memory (20 R44): this stands for the host issuing the word.
DESIGN CHOICE, safe: logs 3, 4 and 17.  `FAULT` and `BUSY` are left as they are. -/
def State.withFetchWord (s : State) (nbits w : Nat) : State :=
  { s with inputs := .command (tableWord nbits w) 0 :: s.inputs }

end Sys2Proof.Machine
end

