-- ==== Sys2Proof/Machine/Assembler.lean ====
section
/-! DEFINITION. Command scripts: the pair a command assembles to, the pseudo-instructions, and the one-line assembler
(30_encoding.md R60 to R63).  Nothing here is part of the block: a script is what the host issues.  Text is a list of
characters.  The spec gives the shape of a line; how white space, empty lines and letter case of hexadecimal digits
are read is DESIGN CHOICE, safe: log 19. -/

namespace Sys2Proof.Machine

/-- One command of a script: `(cmd, wdata)` (30 R61). -/
abbrev ScriptLine := CmdWord × Word

/-- The pair a command assembles to: `wdata` is written as 0 for formats `N` and `I` (30 R61). -/
def assemble (i : Instr) (value : Word) : ScriptLine :=
  match i.format with
  | .n | .i => (encode i, 0)
  | .id => (encode i, value)

/-- The host events that issue a script, in order (30 R63). -/
def issue (script : List ScriptLine) : List HostEvent := script.map fun p => .command p.1 p.2

/-- LDSTATE v0, ..., v24: 25 WRLANE in index order (30 R62). -/
def ldState (v : Lanes) : List ScriptLine :=
  (List.finRange 25).map fun k => assemble (.wrlane (BitVec.ofNat 8 k.val)) v[k]

/-- ZEROSTATE: LDSTATE of 25 zeros (30 R62). -/
def zeroState : List ScriptLine := ldState (Vector.replicate 25 0)

/-- ROUNDS: ROUND 0 to ROUND 23 (30 R62). -/
def rounds : List ScriptLine :=
  (List.finRange 24).map fun r => assemble (.round (BitVec.ofNat 8 r.val)) 0

/-- A space or a tab. -/
def isBlank (c : Char) : Bool := c == ' ' || c == '\t'

/-- Drop white space at both ends. -/
def trim (l : List Char) : List Char := ((l.dropWhile isBlank).reverse.dropWhile isBlank).reverse

/-- The pieces between commas. -/
def splitCommas : List Char → List (List Char)
  | [] => [[]]
  | c :: cs =>
    match c == ',', splitCommas cs with
    | true, pieces => [] :: pieces
    | false, [] => [[c]]
    | false, p :: pieces => (c :: p) :: pieces

/-- The value of a digit, decimal or hexadecimal. -/
def digitValue (c : Char) : Option Nat :=
  if 48 ≤ c.toNat ∧ c.toNat ≤ 57 then some (c.toNat - 48)
  else if 65 ≤ c.toNat ∧ c.toNat ≤ 70 then some (c.toNat - 55)
  else if 97 ≤ c.toNat ∧ c.toNat ≤ 102 then some (c.toNat - 87)
  else none

/-- Digits in a base, continuing from `acc`. -/
def parseDigits (base : Nat) : Nat → List Char → Option Nat
  | acc, [] => some acc
  | acc, c :: cs =>
    match digitValue c with
    | some d => if d < base then parseDigits base (acc * base + d) cs else none
    | none => none

/-- A number, decimal or `0x` hexadecimal, with at least one digit (30 R61). -/
def parseNumber : List Char → Option Nat
  | [] => none
  | ['0', 'x'] => none
  | '0' :: 'x' :: ds => parseDigits 16 0 ds
  | ds => parseDigits 10 0 ds

/-- An immediate: a number that fits `IMM` (30 R50). -/
def parseImm (l : List Char) : Option Byte := do
  let n ← parseNumber l
  if n < 256 then some (BitVec.ofNat 8 n) else none

/-- A data operand: a number that fits `wdata` (30 R56). -/
def parseData (l : List Char) : Option Word := do
  let n ← parseNumber l
  if n < 2 ^ 64 then some (BitVec.ofNat 64 n) else none

/-- A command of format `N`: no operand. -/
def asmN (i : Instr) : List (List Char) → Option (List ScriptLine)
  | [] => some [assemble i 0]
  | _ => none

/-- A command of format `I`: the immediate. -/
def asmI (f : Byte → Instr) : List (List Char) → Option (List ScriptLine)
  | [a] => do
    let v ← parseImm a
    some [assemble (f v) 0]
  | _ => none

/-- A command of format `ID`: the immediate first, the data operand second (30 R61). -/
def asmID (f : Byte → Instr) : List (List Char) → Option (List ScriptLine)
  | [a, b] => do
    let v ← parseImm a
    let d ← parseData b
    some [assemble (f v) d]
  | _ => none

/-- LDSTATE takes exactly 25 data operands (30 R62). -/
def asmLdState (ops : List (List Char)) : Option (List ScriptLine) := do
  let vs ← ops.mapM parseData
  if h : vs.length = 25 then some (ldState ⟨vs.toArray, by simpa using h⟩) else none

/-- A pseudo-instruction without operands. -/
def asmPseudo (l : List ScriptLine) : List (List Char) → Option (List ScriptLine)
  | [] => some l
  | _ => none

/-- A mnemonic in capitals and its operands (30 R60 to R62). -/
def asmCommand (mnemonic : List Char) (ops : List (List Char)) : Option (List ScriptLine) :=
  if mnemonic = ['R', 'O', 'T', 'L'] then asmID .rotl ops
  else if mnemonic = ['R', 'C', 'O', 'N', 'S', 'T'] then asmI .rconst ops
  else if mnemonic = ['T', 'H', 'E', 'T', 'A'] then asmN .theta ops
  else if mnemonic = ['R', 'H', 'O'] then asmN .rho ops
  else if mnemonic = ['P', 'I'] then asmN .pi ops
  else if mnemonic = ['C', 'H', 'I'] then asmN .chi ops
  else if mnemonic = ['I', 'O', 'T', 'A'] then asmI .iota ops
  else if mnemonic = ['R', 'O', 'U', 'N', 'D'] then asmI .round ops
  else if mnemonic = ['P', 'E', 'R', 'M', 'U', 'T', 'E'] then asmN .permute ops
  else if mnemonic = ['E', 'X', 'T', 'R', 'A', 'C', 'T', '2', '5', '6'] then asmN .extract256 ops
  else if mnemonic = ['W', 'R', 'L', 'A', 'N', 'E'] then asmID .wrlane ops
  else if mnemonic = ['R', 'D', 'L', 'A', 'N', 'E'] then asmI .rdlane ops
  else if mnemonic = ['L', 'D', 'S', 'T', 'A', 'T', 'E'] then asmLdState ops
  else if mnemonic = ['Z', 'E', 'R', 'O', 'S', 'T', 'A', 'T', 'E'] then asmPseudo zeroState ops
  else if mnemonic = ['R', 'O', 'U', 'N', 'D', 'S'] then asmPseudo rounds ops
  else none

/-- The operands after the mnemonic: separated by commas, or none at all. -/
def operandsOf (l : List Char) : List (List Char) :=
  if trim l = [] then [] else (splitCommas l).map trim

/-- One line of a script: a semicolon starts a comment, an empty line issues nothing (30 R61). -/
def assembleLine (line : List Char) : Option (List ScriptLine) :=
  let text := trim (line.takeWhile fun c => c != ';')
  if text = [] then some []
  else asmCommand (text.takeWhile fun c => !isBlank c) (operandsOf (text.dropWhile fun c => !isBlank c))

/-- A whole script, line by line, with no labels, branches or directives (30 R63). -/
def assembleScript (lines : List (List Char)) : Option (List ScriptLine) := do
  let parts ← lines.mapM assembleLine
  some parts.flatten

end Sys2Proof.Machine
end

