-- ==== Sys2Proof/Safety.lean ====
section
/-! DEFINITION. The terms in which claims about the machine are stated: the architectural state of the block, the
invariant of command boundaries, what a completed command leaves alone, and when a run is safe. -/

namespace Sys2Proof.Machine

/-- The block's architectural state (A, RND, FAULT, CAUSE) (10, introduction). -/
structure Block where
  /-- The lanes. -/
  lanes : Lanes
  /-- `RND`. -/
  rnd : BitVec 5
  /-- `FAULT`. -/
  fault : Bool
  /-- `CAUSE`. -/
  cause : Cause
  deriving DecidableEq, Repr

/-- The block's part of the state. -/
def State.block (s : State) : Block := ⟨s.lanes, s.rnd, s.fault, s.cause⟩

/-- Lane `k` of a lane file by its number.  Numbers above 24 name nothing (20 R31) and no claim uses one. -/
def laneAt (A : Lanes) (k : Nat) : Word := if h : k < 25 then A[k] else 0

/-- The lane file whose lanes are the XOR of the lanes of two others (42 R102). -/
def xorLanes (A B : Lanes) : Lanes := buildLanes fun i : Fin 25 => A[i] ^^^ B[i]

/-- The invariant of command boundaries: `RND` = 0 (10 R14), no command in progress (10 R17), and `CAUSE` is 0 exactly
while `FAULT` is 0 (10 R16, 60 R122). -/
def State.Inv (s : State) : Prop :=
  s.rnd = 0 ∧ s.busy = false ∧ (s.fault = false ↔ s.cause = .noFault)

/-- The block runs: `FAULT` = 0 (10 R15).  A claim about a command script holds only for runs that stay so (60 R129). -/
def State.Running (s : State) : Prop := s.fault = false

/-- `t` follows `s` by a command that answered `r`: one response more, the command over, and nothing else touched
outside the block (20 R47, R48). -/
def Answered (s t : State) (r : Response) : Prop :=
  t.responses = s.responses ++ [r] ∧ t.busy = false ∧ t.wdata = s.wdata ∧ t.inputs = s.inputs ∧
    t.resets = s.resets

/-- `RND`, `FAULT` and `CAUSE` are as before. -/
def SameStatus (s t : State) : Prop := t.rnd = s.rnd ∧ t.fault = s.fault ∧ t.cause = s.cause

/-- The fault entry (60 R128). -/
def FaultEntry (s t : State) (c : Cause) : Prop :=
  t.fault = true ∧ t.cause = c ∧ t.lanes = s.lanes ∧ t.rnd = s.rnd ∧ Answered s t (.fault c)

/-- The state in which an accepted command is executed: its event taken, its data operand sampled, in progress. -/
def State.taking (s : State) (d : Word) (rest : List HostEvent) : State :=
  { s with inputs := rest, wdata := d, busy := true }

/-- The state with another data operand: each command comes with one of its own (20 R47, 30 R50). -/
def State.withOperand (s : State) (d : Word) : State := { s with wdata := d }

/-- Commands executed one after the other, each from the state the one before left and all with the operand that state
holds (20 R41). -/
def execAll : List Instr → State → Host.Outcome State Fault Refusal
  | [], s => .next s
  | i :: rest, s =>
    match exec i s with
    | .next t => execAll rest t
    | .fault f => .fault f
    | .refused r => .refused r

/-- Commands executed one after the other, each with its own data operand (20 R41, R47). -/
def execEach : List (Instr × Word) → State → Host.Outcome State Fault Refusal
  | [], s => .next s
  | (i, d) :: rest, s =>
    match exec i (s.withOperand d) with
    | .next t => execEach rest t
    | .fault f => .fault f
    | .refused r => .refused r

/-- Some lane file on which applying the function twice differs from applying it once (20 R38). -/
def NotIdempotent (f : Lanes → Lanes) : Prop := ∃ A, f (f A) ≠ f A

/-- The lanes a command reads (10 R12, column 2). -/
def lanesRead : Instr → Nat → Bool
  | .rotl _, _ | .rconst _, _ | .wrlane _, _ => false
  | .rho, k | .pi, k => 1 ≤ k
  | .iota _, k => k == 0
  | .extract256, k => k ≤ 3
  | .rdlane i, k => k == i.toNat
  | .theta, _ | .chi, _ | .round _, _ | .permute, _ => true

/-- The lanes a command writes (10 R12, column 3). -/
def lanesWritten : Instr → Nat → Bool
  | .rotl _, _ | .rconst _, _ | .extract256, _ | .rdlane _, _ => false
  | .rho, k | .pi, k => 1 ≤ k
  | .iota _, k => k == 0
  | .wrlane i, k => k == i.toNat
  | .theta, _ | .chi, _ | .round _, _ | .permute, _ => true

/-- The cause of the fault that a word raises in a running block, by the order of checks of 60 R127; `noFault` if it
raises none.  Written from the fields of the word alone (30 R58, 60 R122). -/
def causeOfWord (c : CmdWord) : Cause :=
  let op := (c >>> 12).toNat
  let rsv := (c >>> 8).toNat % 16
  let imm := c.toNat % 256
  if op = 0 ∨ 13 ≤ op ∨ rsv ≠ 0 ∨ (op ∈ [3, 4, 5, 6, 9, 10] ∧ imm ≠ 0) then .illegalCmd
  else if op ∈ [2, 7, 8] ∧ 23 < imm then .rcRange
  else if op ∈ [11, 12] ∧ 24 < imm then .laneRange
  else .noFault

end Sys2Proof.Machine
end

