-- ==== Sys2Proof/Certificates/Slice0/Obligations.lean ====
section
/-! DEFINITION. The statements about the model, each from a rule of spec/ or from several; proofs are the provers'. -/

open Sys2Proof Sys2Proof.Machine

/-! ## Encoding -/

/-- 30 R50 to R57: no bit of a command is lost by encoding it. -/
def Obligations.DecodeOfEncode : Prop :=
  ∀ i : Instr, decode (encode i) = .instr i

/-- 30 R58: a legal word is the encoding of the command it decodes to, so no two words mean the same command. -/
def Obligations.EncodeOfDecode : Prop :=
  ∀ (c : CmdWord) (i : Instr), decode c = .instr i → encode i = c

/-- 30 R57: a word is a command exactly when it has the row's `match` under the row's `mask` and the command's `IMM`;
and the rows are disjoint. -/
def Obligations.DecodeFollowsTheOpcodeMap : Prop :=
  (∀ (c : CmdWord) (i : Instr),
      decode c = .instr i ↔ c &&& i.maskWord = i.matchWord ∧ c.toNat % 256 = i.imm.toNat) ∧
    (∀ (c : CmdWord) (i j : Instr), c &&& i.maskWord = i.matchWord → c &&& j.maskWord = j.matchWord →
      i.matchWord = j.matchWord)

/-- 30 R58: the three clauses are exactly the illegal words. -/
def Obligations.IllegalWordsAreTheThreeClauses : Prop :=
  ∀ c : CmdWord, (∃ e, decode c = .illegal e) ↔
    ((c >>> 12).toNat ∈ [0x0, 0xD, 0xE, 0xF] ∨ (c >>> 8).toNat % 16 ≠ 0 ∨
      ((c >>> 12).toNat ∈ [0x3, 0x4, 0x5, 0x6, 0x9, 0xA] ∧ c.toNat % 256 ≠ 0))

/-- 30 R57, R58, 95 section 3.13: words written out from the opcode map, legal and illegal. -/
def Obligations.WordsOfTheOpcodeMapDecode : Prop :=
  decode 0x1004 = .instr (.rotl 4) ∧ decode 0x2002 = .instr (.rconst 2) ∧ decode 0x3000 = .instr .theta ∧
    decode 0x4000 = .instr .rho ∧ decode 0x5000 = .instr .pi ∧ decode 0x6000 = .instr .chi ∧
    decode 0x7017 = .instr (.iota 23) ∧ decode 0x8000 = .instr (.round 0) ∧ decode 0x9000 = .instr .permute ∧
    decode 0xA000 = .instr .extract256 ∧ decode 0xB010 = .instr (.wrlane 16) ∧ decode 0xC003 = .instr (.rdlane 3) ∧
    decode 0x2118 = .illegal (.reservedBits 1) ∧ decode 0x3001 = .illegal (.immediateNotZero 1) ∧
    decode 0xD000 = .illegal (.reservedOp 0xD)

/-! ## The step -/

/-- 20 R46, R47: a ready block executes the command its word decodes to, with the operand sampled with the word.
The events and BUSY are the model's rendering of the port (logs 3, 4, 6). -/
def Obligations.StepRunsTheDecodedCommand : Prop :=
  ∀ (s : State) (c : CmdWord) (d : Word) (rest : List HostEvent) (i : Instr),
    s.cmdReady = true → s.inputs = .command c d :: rest → decode c = .instr i →
      step s = exec i (s.taking d rest)

/-- 60 R125: any illegal word takes the fault entry with ILLEGAL_CMD. -/
def Obligations.IllegalWordRaisesIllegalCmd : Prop :=
  ∀ (s : State) (c : CmdWord) (d : Word) (rest : List HostEvent),
    s.cmdReady = true → s.inputs = .command c d :: rest →
    ((c >>> 12).toNat ∈ [0x0, 0xD, 0xE, 0xF] ∨ (c >>> 8).toNat % 16 ≠ 0 ∨
      ((c >>> 12).toNat ∈ [0x3, 0x4, 0x5, 0x6, 0x9, 0xA] ∧ c.toNat % 256 ≠ 0)) →
      ∃ t, step s = .next t ∧ FaultEntry (s.taking d rest) t .illegalCmd

/-- 60 R127: legality is checked first, then the range of the one ranged operand, and the first check that fails gives
the cause; a word that passes them raises nothing. -/
def Obligations.FirstFailingCheckGivesTheCause : Prop :=
  ∀ (s : State) (c : CmdWord) (d : Word) (rest : List HostEvent),
    s.cmdReady = true → s.inputs = .command c d :: rest →
      ∃ t, step s = .next t ∧
        (causeOfWord c = .noFault → t.fault = s.fault ∧ t.cause = s.cause) ∧
        (causeOfWord c ≠ .noFault → FaultEntry (s.taking d rest) t (causeOfWord c))

/-- 20 R47: every accepted command ends and gives exactly one response, of the kind its row names. -/
def Obligations.AcceptedCommandGivesOneResponse : Prop :=
  ∀ (s : State) (c : CmdWord) (d : Word) (rest : List HostEvent),
    s.cmdReady = true → s.inputs = .command c d :: rest →
      ∃ t r, step s = .next t ∧ Answered (s.taking d rest) t r ∧
        (causeOfWord c ≠ .noFault → r = .fault (causeOfWord c)) ∧
        (causeOfWord c = .noFault →
          ((c >>> 12).toNat ∈ [0x1, 0x2, 0xC] → ∃ v, r = .data v) ∧
          ((c >>> 12).toNat = 0xA → ∃ v, r = .digest v) ∧
          ((c >>> 12).toNat ∉ [0x1, 0x2, 0xA, 0xC] → r = .noData))

/-- 60 R129, R130: while FAULT is 1 a command is not accepted (the model stops, log 8), and whatever step is taken
leaves the block as it is or is a reset. -/
def Obligations.HaltedBlockAcceptsNoCommand : Prop :=
  (∀ (s : State) (c : CmdWord) (d : Word) (rest : List HostEvent),
      s.fault = true → s.inputs = .command c d :: rest → step s = .fault .halted) ∧
    (∀ s t : State, s.fault = true → step s = .next t →
      t.block = s.block ∨
        (t.fault = false ∧ ∃ e rest, s.inputs = e :: rest ∧ (e = .reset ∨ ∃ c d, e = .abandoned c d)))

/-- 70 R140, R141, 10 R22: reset, at a command boundary or during a command, clears RND, FAULT, CAUSE and BUSY in any
state and gives no response.  The lanes are RESET_LANES, free values (log 1): the clause about them is the model's. -/
def Obligations.ResetClearsTheBlock : Prop :=
  ∀ (s : State) (e : HostEvent) (rest : List HostEvent),
    s.inputs = e :: rest → (e = .reset ∨ ∃ c d, e = .abandoned c d) →
      ∃ t, step s = .next t ∧ t.fault = false ∧ t.cause = .noFault ∧ t.rnd = 0 ∧ t.busy = false ∧
        t.status = 0 ∧ t.cmdReady = true ∧ t.inputs = rest ∧ t.responses = s.responses ∧
        ∀ i : Fin 25, t.lanes[i] = Config.resetLane (s.resets + 1) i

/-- 10 R22: the values the spec gives for reset, at power-on. -/
def Obligations.PowerOnState : Prop :=
  State.reset.rnd = 0 ∧ State.reset.fault = false ∧ State.reset.cause = .noFault ∧ State.reset.busy = false ∧
    State.reset.status = 0x00 ∧ State.reset.cmdReady = true

/-- 60 R138: with nothing issued the block holds its state (log 10). -/
def Obligations.IdleBlockHoldsItsState : Prop :=
  ∀ s : State, s.inputs = [] → step s = .next s

/-! ## Invariants and whole-machine rules -/

/-- 10 R14, R16, R22: the invariant of command boundaries holds after power-on. -/
def Obligations.PowerOnMeetsTheInvariant : Prop := State.reset.Inv

/-- 10 R14, R16, R17, 60 R122: every step keeps RND = 0, BUSY = 0 and CAUSE = 0 exactly while FAULT = 0. -/
def Obligations.StepKeepsTheInvariant : Prop :=
  ∀ s t : State, s.Inv → step s = .next t → t.Inv

/-- 00 R3: the block's next state and its response are a function of the block's state, the word and the operand. -/
def Obligations.CommandIsAFunctionOfBlockAndOperands : Prop :=
  ∀ (s₁ s₂ : State) (c : CmdWord) (d : Word) (rest₁ rest₂ : List HostEvent),
    s₁.cmdReady = true → s₂.cmdReady = true → s₁.block = s₂.block →
    s₁.inputs = .command c d :: rest₁ → s₂.inputs = .command c d :: rest₂ →
      ∃ t₁ t₂ r, step s₁ = .next t₁ ∧ step s₂ = .next t₂ ∧ t₁.block = t₂.block ∧
        t₁.responses = s₁.responses ++ [r] ∧ t₂.responses = s₂.responses ++ [r]

/-- 30 R52: any value of the data operand gives the same block and the same response in formats N and I. -/
def Obligations.DataOperandIsIgnoredOutsideFormatID : Prop :=
  ∀ (s : State) (i : Instr) (d₁ d₂ : Word) (rest : List HostEvent),
    i.format ≠ .id →
      ∃ t₁ t₂ r, exec i (s.taking d₁ rest) = .next t₁ ∧ exec i (s.taking d₂ rest) = .next t₂ ∧
        t₁.block = t₂.block ∧ Answered (s.taking d₁ rest) t₁ r ∧ Answered (s.taking d₂ rest) t₂ r

/-- 10 R12, column 3: a command changes no lane but those its row lists. -/
def Obligations.LanesOutsideTheWriteSetAreKept : Prop :=
  ∀ (i : Instr) (s t : State), exec i s = .next t →
    ∀ k : Fin 25, lanesWritten i k.val = false → t.lanes[k] = s.lanes[k]

/-- 10 R12, column 2: what a command writes and answers depends on no lane but those its row lists. -/
def Obligations.ResultDependsOnTheReadSetOnly : Prop :=
  ∀ (i : Instr) (s₁ s₂ t₁ t₂ : State), exec i s₁ = .next t₁ → exec i s₂ = .next t₂ → s₁.wdata = s₂.wdata →
    (∀ k : Fin 25, lanesRead i k.val = true → s₁.lanes[k] = s₂.lanes[k]) →
      (∀ k : Fin 25, i.WellFormed → lanesWritten i k.val = true → t₁.lanes[k] = t₂.lanes[k]) ∧
        ∃ r, t₁.responses = s₁.responses ++ [r] ∧ t₂.responses = s₂.responses ++ [r]

/-- 10 R13 to R17, 60 R128: what every command leaves alone.  RND is 0 after PERMUTE and otherwise as before; FAULT
and CAUSE are as before unless the operand is invalid, and then the command is the fault entry and nothing else. -/
def Obligations.FrameOfEveryCommand : Prop :=
  ∀ (i : Instr) (s t : State), exec i s = .next t →
    (∃ r, Answered s t r) ∧ t.rnd = (if i = .permute then 0 else s.rnd) ∧
      (i.WellFormed → t.fault = s.fault ∧ t.cause = s.cause) ∧
      (¬ i.WellFormed → FaultEntry s t .rcRange ∨ FaultEntry s t .laneRange)

/-- 20 R38: reads change nothing in the block and answer the same again; WRLANE is idempotent; no transform is. -/
def Obligations.ReadsHaveNoSideEffect : Prop :=
  (∀ (i : Instr) (s : State), i.WellFormed →
      (i = .extract256 ∨ ∃ v, i = .rotl v ∨ i = .rconst v ∨ i = .rdlane v) →
        ∃ t u r, exec i s = .next t ∧ exec i t = .next u ∧ t.block = s.block ∧ u.block = s.block ∧
          Answered s t r ∧ Answered t u r) ∧
    (∀ (k : Byte) (s : State), k.toNat ≤ 24 →
        ∃ t u, exec (.wrlane k) s = .next t ∧ exec (.wrlane k) t = .next u ∧ u.block = t.block) ∧
    NotIdempotent theta ∧ NotIdempotent rho ∧ NotIdempotent pi ∧ NotIdempotent chi ∧
    (∀ r : Fin 24, NotIdempotent fun A => iota A r) ∧ (∀ r : Fin 24, NotIdempotent fun A => roundLanes A r) ∧
    NotIdempotent permuteLanes

/-- 20 R41, R47: RDLANE answers the value last written, whatever commands that do not write the lane came between, each
with a data operand of its own; and the commands all answer.  Where FAULT is 1 at the start or a command between faults
(RCONST 24, WRLANE 25), the block accepts no further command (60 R129): for such a run this speaks of exec alone, which
does not look at FAULT by the model's reading (log 12, DEDUCED), and it does not say that the block runs the script. -/
def Obligations.ReadReturnsTheLatestWrite : Prop :=
  ∀ (k : Byte) (s : State) (v d : Word) (between : List (Instr × Word)), k.toNat ≤ 24 →
    (∀ p ∈ between, lanesWritten p.1 k.toNat = false) →
      ∃ t u w, exec (.wrlane k) (s.withOperand v) = .next t ∧ execEach between t = .next u ∧
        exec (.rdlane k) (u.withOperand d) = .next w ∧ w.responses = u.responses ++ [.data v]

/-! ## Status -/

/-- 10 R17: the bits of STATUS; and (20 R46) cmd_ready is 1 exactly when BUSY and FAULT are 0. -/
def Obligations.StatusBits : Prop :=
  ∀ s : State,
    s.status.getLsbD 0 = s.busy ∧ s.status.getLsbD 1 = s.fault ∧ s.status.toNat / 4 % 4 = s.cause.code.toNat ∧
      s.status.toNat / 16 = 0 ∧ (s.cmdReady = true ↔ s.busy = false ∧ s.fault = false)

/-- 60 R122, 10 R17, 95 section 3.13: the codes of CAUSE, and STATUS = CAUSE x 4 + FAULT x 2 + BUSY after a fault. -/
def Obligations.StatusAfterAFault : Prop :=
  (Cause.noFault.code = 0 ∧ Cause.rcRange.code = 1 ∧ Cause.laneRange.code = 2 ∧ Cause.illegalCmd.code = 3) ∧
    ∀ (s t : State) (c : Cause), FaultEntry s t c →
      t.status.toNat = c.code.toNat * 4 + 2 ∧ t.cmdReady = false

/-! ## ROTL -/

/-- 40 R70, R71: every bit moves up n places around the word; the formula for 1 to 63,
whose two terms have no bit in common; the identity at 0; reduction modulo 64. -/
def Obligations.RotationMovesEveryBit : Prop :=
  (∀ (v : Word) (n p : Nat), p < 64 → (rotl64 v n).getLsbD ((p + n) % 64) = v.getLsbD p) ∧
    (∀ (v : Word) (n : Nat), 1 ≤ n → n ≤ 63 →
      rotl64 v n = (v <<< n) ||| (v >>> (64 - n)) ∧ (v <<< n) &&& (v >>> (64 - n)) = 0) ∧
    (∀ v : Word, rotl64 v 0 = v) ∧ ∀ (v : Word) (n : Nat), rotl64 v n = rotl64 v (n % 64)

/-- 40 R73: the inverse law and its extension to all amounts. -/
def Obligations.RotationsCompose : Prop :=
  (∀ (v : Word) (n : Nat), 1 ≤ n → n ≤ 63 → rotl64 (rotl64 v n) (64 - n) = v) ∧
    (∀ (v : Word) (a b : Nat), rotl64 (rotl64 v a) b = rotl64 v (a + b)) ∧ ∀ v : Word, rotl64 v 64 = v

/-- 40 R74: rotation distributes over XOR, AND and NOT. -/
def Obligations.RotationDistributes : Prop :=
  ∀ (v w : Word) (n : Nat), rotl64 (v ^^^ w) n = rotl64 v n ^^^ rotl64 w n ∧
    rotl64 (v &&& w) n = rotl64 v n &&& rotl64 w n ∧ rotl64 (~~~v) n = ~~~(rotl64 v n)

/-- 40 R72: ROTL answers the data operand with every bit moved up IMM mod 64 places, for every IMM, and changes nothing
in the block. -/
def Obligations.RotlAnswersTheRotatedOperand : Prop :=
  ∀ (n : Byte) (s : State), ∃ t v, exec (.rotl n) s = .next t ∧ Answered s t (.data v) ∧
    (∀ p, p < 64 → v.getLsbD ((p + n.toNat) % 64) = s.wdata.getLsbD p) ∧ t.block = s.block

/-! ## RCONST -/

/-- 41 R77: bit `2^j - 1` of the constant is bit `j` of the byte for `j` in 0..6, every other bit is 0, bit 7 is
ignored, and the decoder is injective on bits 6:0. -/
def Obligations.DecoderPlacesSevenBits : Prop :=
  (∀ (b : Byte) (p : Nat), (rcDecode b).getLsbD p = true ↔ ∃ j, j ≤ 6 ∧ p = 2 ^ j - 1 ∧ b.getLsbD j = true) ∧
    ∀ a b : Byte, rcDecode a = rcDecode b ↔ a.toNat % 128 = b.toNat % 128

/-- 41 R75: every round constant lies within the seven positions. -/
def Obligations.ConstantsLieWithinTheMask : Prop :=
  ∀ r : Fin 24, roundConstant r &&& ~~~(0x800000008000808B : Word) = 0

/-- 41 R79, R80: the lookup gives the canonical constants, row by row as the oracle table prints them: the constant of
a round of the first half beside that of the round twelve later.  Both tables come from general knowledge by the spec's
own mark (93 G1, G2; log 14). -/
def Obligations.ConstantsAreTheOracleTable : Prop :=
  ∀ entries ∈ ([
      ((0, 0x0000000000000001), (12, 0x000000008000808B)),
      ((1, 0x0000000000008082), (13, 0x800000000000008B)),
      ((2, 0x800000000000808A), (14, 0x8000000000008089)),
      ((3, 0x8000000080008000), (15, 0x8000000000008003)),
      ((4, 0x000000000000808B), (16, 0x8000000000008002)),
      ((5, 0x0000000080000001), (17, 0x8000000000000080)),
      ((6, 0x8000000080008081), (18, 0x000000000000800A)),
      ((7, 0x8000000000008009), (19, 0x800000008000000A)),
      ((8, 0x000000000000008A), (20, 0x8000000080008081)),
      ((9, 0x0000000000000088), (21, 0x8000000000008080)),
      ((10, 0x0000000080008009), (22, 0x0000000080000001)),
      ((11, 0x000000008000000A), (23, 0x8000000080008008))] :
      List ((Fin 24 × Word) × (Fin 24 × Word))),
    entries.2.1.val = entries.1.1.val + 12 ∧
      roundConstant entries.1.1 = entries.1.2 ∧ roundConstant entries.2.1 = entries.2.2

/-- 41 R81: RCONST answers the round's constant for an index to 23, and above it is the fault entry RC_RANGE. -/
def Obligations.RconstAnswersOrFaults : Prop :=
  ∀ (r : Byte) (s : State), ∃ t, exec (.rconst r) s = .next t ∧
    (∀ k : Fin 24, k.val = r.toNat → Answered s t (.data (rcDecode rom[k])) ∧ t.block = s.block) ∧
    (23 < r.toNat → FaultEntry s t .rcRange)

/-! ## The permutation -/

/-- 42 R85, R86: THETA, with C and D from the lanes before it. -/
def Obligations.ThetaMixesColumnParities : Prop :=
  ∀ s : State, ∃ t, exec .theta s = .next t ∧ Answered s t .noData ∧ SameStatus s t ∧
    ∀ (A : Nat → Word) (C D : Nat → Word), (∀ k, A k = laneAt s.lanes k) →
      (∀ x, C x = A x ^^^ A (x + 5) ^^^ A (x + 10) ^^^ A (x + 15) ^^^ A (x + 20)) →
      (∀ x, D x = rotl64 (C ((x + 1) % 5)) 1 ^^^ C ((x + 4) % 5)) →
      ∀ x y, x < 5 → y < 5 → laneAt t.lanes (x + 5 * y) = A (x + 5 * y) ^^^ D x

/-- 42 R87, R88: RHO, with the offsets by row and column as the spec's second table lists them. -/
def Obligations.RhoRotatesByTheOffsetTable : Prop :=
  ∀ s : State, ∃ t, exec .rho s = .next t ∧ Answered s t .noData ∧ SameStatus s t ∧
    laneAt t.lanes 0 = laneAt s.lanes 0 ∧
    ∀ x y offsets n,
      [[0, 1, 62, 28, 27], [36, 44, 6, 55, 20], [3, 10, 43, 25, 39], [41, 45, 15, 21, 8], [18, 2, 61, 56, 14]][y]?
        = some offsets → offsets[x]? = some n →
      laneAt t.lanes (x + 5 * y) = rotl64 (laneAt s.lanes (x + 5 * y)) n

/-- 42 R89, R91: PI moves the value at (x,y) to (y, (2x + 3y) mod 5). -/
def Obligations.PiMovesEveryLane : Prop :=
  ∀ s : State, ∃ t, exec .pi s = .next t ∧ Answered s t .noData ∧ SameStatus s t ∧
    ∀ x y, x < 5 → y < 5 → laneAt t.lanes (y + 5 * ((2 * x + 3 * y) % 5)) = laneAt s.lanes (x + 5 * y)

/-- 42 R89: the SRC and DEST tables, that they invert each other, and the cycle of the 24 lanes from lane 1. -/
def Obligations.PiTablesAndCycle : Prop :=
  ∃ dest : Fin 25 → Fin 25,
    (List.finRange 25).map (fun k => (piSource k).val) =
      [0, 6, 12, 18, 24, 3, 9, 10, 16, 22, 1, 7, 13, 19, 20, 4, 5, 11, 17, 23, 2, 8, 14, 15, 21] ∧
    (List.finRange 25).map (fun i => (dest i).val) =
      [0, 10, 20, 5, 15, 16, 1, 11, 21, 6, 7, 17, 2, 12, 22, 23, 8, 18, 3, 13, 14, 24, 9, 19, 4] ∧
    (∀ i, piSource (dest i) = i) ∧
    (List.range 25).map (fun n => ((dest^[n]) 1).val) =
      [1, 10, 7, 11, 17, 18, 3, 5, 16, 8, 21, 24, 4, 15, 23, 19, 13, 12, 2, 20, 14, 22, 9, 6, 1]

/-- 42 R90, C6: the 25 assignments of in-place Pi give the same lanes as the mapping. -/
def Obligations.InPlacePiIsPi : Prop := ∀ A : Lanes, piInPlace A = pi A

/-- 42 R89, R91: applying PI 24 times restores every State, and no smaller positive number of times does. -/
def Obligations.PiHasOrderTwentyFour : Prop :=
  (∀ A : Lanes, (pi^[24]) A = A) ∧ ∀ n, 0 < n → n < 24 → ∃ A : Lanes, (pi^[n]) A ≠ A

/-- 42 R92, R94: CHI, with all three lanes from before it. -/
def Obligations.ChiCombinesEachRow : Prop :=
  ∀ s : State, ∃ t, exec .chi s = .next t ∧ Answered s t .noData ∧ SameStatus s t ∧
    ∀ x y, x < 5 → y < 5 → laneAt t.lanes (x + 5 * y) =
      laneAt s.lanes (x + 5 * y) ^^^
        (~~~(laneAt s.lanes ((x + 1) % 5 + 5 * y)) &&& laneAt s.lanes ((x + 2) % 5 + 5 * y))

/-- 42 R93: in-place Chi with two temporaries gives the same lanes, and the order of the rows is free. -/
def Obligations.InPlaceChiIsChi : Prop :=
  ∀ (A : Lanes) (order : List (Fin 5)), order.Perm (List.finRange 5) → order.foldl chiRowInPlace A = chi A

/-- 42 R95, R96: IOTA changes lane 0 alone, by the constant of the round, in no bit but the seven of 41 R75; above 23
it is the fault entry RC_RANGE. -/
def Obligations.IotaAddsTheConstantToLaneZero : Prop :=
  ∀ (r : Byte) (s : State), ∃ t, exec (.iota r) s = .next t ∧
    (∀ k : Fin 24, k.val = r.toNat → Answered s t .noData ∧ SameStatus s t ∧
      laneAt t.lanes 0 = laneAt s.lanes 0 ^^^ rcDecode rom[k] ∧
      (laneAt t.lanes 0 ^^^ laneAt s.lanes 0) &&& ~~~(0x800000008000808B : Word) = 0 ∧
      ∀ j, 1 ≤ j → j < 25 → laneAt t.lanes j = laneAt s.lanes j) ∧
    (23 < r.toNat → FaultEntry s t .rcRange)

/-- 42 R97, R98: ROUND r leaves the lanes that THETA, RHO, PI, CHI, IOTA r leave when issued in that order, and above
23 is the fault entry RC_RANGE before Theta. -/
def Obligations.RoundIsItsFiveCommands : Prop :=
  ∀ (r : Byte) (s : State), ∃ t, exec (.round r) s = .next t ∧
    (r.toNat ≤ 23 → Answered s t .noData ∧ SameStatus s t ∧
      ∃ u, execAll [.theta, .rho, .pi, .chi, .iota r] s = .next u ∧ t.block = u.block) ∧
    (23 < r.toNat → FaultEntry s t .rcRange)

/-- 42 R99, R100, 30 R62: PERMUTE completes in every state with RND = 0, and from a command boundary leaves the block
that ROUND 0 to ROUND 23 leave. -/
def Obligations.PermuteIsTwentyFourRounds : Prop :=
  ∀ s : State, ∃ t, exec .permute s = .next t ∧ Answered s t .noData ∧ t.rnd = 0 ∧ t.fault = s.fault ∧
    t.cause = s.cause ∧
    ∃ u, execAll ((List.range 24).map fun r => .round (BitVec.ofNat 8 r)) s = .next u ∧ t.lanes = u.lanes ∧
      (s.rnd = 0 → t.block = u.block)

/-- 10 R14, 42 R100: inside PERMUTE, RND holds r when round r begins, for r = 0 to 23, and 0 after round 23. -/
def Obligations.RndCountsTheRounds : Prop :=
  ∀ (s : State) (r : Nat), r ≤ 24 →
    (((List.finRange 24).take r).foldl permuteTurn { s with rnd := 0 }).rnd.toNat = if r = 24 then 0 else r

/-- 42 R102: Theta, Rho and Pi are linear, Iota adds a constant, Chi is not linear. -/
def Obligations.LinearTransforms : Prop :=
  (∀ A B : Lanes, theta (xorLanes A B) = xorLanes (theta A) (theta B) ∧
      rho (xorLanes A B) = xorLanes (rho A) (rho B) ∧ pi (xorLanes A B) = xorLanes (pi A) (pi B)) ∧
    (∀ r : Fin 24, ∃ K : Lanes, ∀ A : Lanes, iota A r = xorLanes A K) ∧
    ∃ A B : Lanes, chi (xorLanes A B) ≠ xorLanes (chi A) (chi B)

/-- 42 R102: each of the five transforms is a bijection on States. -/
def Obligations.TransformsAreBijections : Prop :=
  Function.Bijective theta ∧ Function.Bijective rho ∧ Function.Bijective pi ∧ Function.Bijective chi ∧
    ∀ r : Fin 24, Function.Bijective fun A => iota A r

/-- 42 R102: ROUND and PERMUTE are bijections on States. -/
def Obligations.PermutationIsABijection : Prop :=
  (∀ r : Fin 24, Function.Bijective fun A => roundLanes A r) ∧ Function.Bijective permuteLanes ∧
    ∀ (s : State) (B : Lanes), ∃ A t, exec .permute (s.setLanes A) = .next t ∧ t.lanes = B

/-! ## EXTRACT256 -/

/-- 43 R105, R106, R107: digest byte 8i + k is bits 8k+7 to 8k of lane i, the block is unchanged, in every state. -/
def Obligations.ExtractAnswersTheDigestBytes : Prop :=
  ∀ s : State, ∃ t v, exec .extract256 s = .next t ∧ Answered s t (.digest v) ∧ t.block = s.block ∧
    ∀ (i k : Nat) (j : Fin 32), i < 4 → k < 8 → j.val = 8 * i + k →
      (digestBytes v)[j].toNat = (laneAt s.lanes i).toNat / 2 ^ (8 * k) % 256 ∧
      v.toNat / 2 ^ (248 - 8 * j.val) % 256 = (digestBytes v)[j].toNat

/-- 43 R108: the digest determines lanes 0 to 3 and nothing else, they are its bytes read as little-endian numbers, and
every 32-byte string is a digest. -/
def Obligations.ExtractIsInvertible : Prop :=
  (∀ (A : Lanes) (i : Fin 4), (laneAt A i.val).toNat =
      ((List.finRange 8).map fun k : Fin 8 =>
        (digestByte (extract A) ⟨8 * i.val + k.val, by omega⟩).toNat * 2 ^ (8 * k.val)).sum) ∧
    (∀ A B : Lanes, extract A = extract B ↔ ∀ i, i < 4 → laneAt A i = laneAt B i) ∧
    ∀ v : BitVec 256, ∃ A : Lanes, extract A = v

/-- 20 R34, R35: the digest bytes are the first 32 bytes of the byte view of the State.  The view of the whole State is
from general knowledge by the spec's own mark (93 G6; log 21); for these 32 bytes it is derived. -/
def Obligations.DigestIsTheFirstStateBytes : Prop :=
  ∀ (A : Lanes) (j : Fin 32), digestByte (extract A) j = stateByte A ⟨j.val, by omega⟩

/-! ## WRLANE, RDLANE -/

/-- 44 R110: WRLANE replaces lane IMM alone, for an index to 24, and above it is the fault entry LANE_RANGE. -/
def Obligations.WrlaneWritesOneLane : Prop :=
  ∀ (k : Byte) (s : State), ∃ t, exec (.wrlane k) s = .next t ∧
    (k.toNat ≤ 24 → Answered s t .noData ∧ SameStatus s t ∧ laneAt t.lanes k.toNat = s.wdata ∧
      ∀ j, j < 25 → j ≠ k.toNat → laneAt t.lanes j = laneAt s.lanes j) ∧
    (24 < k.toNat → FaultEntry s t .laneRange)

/-- 44 R111: RDLANE answers lane IMM as it stands, for an index to 24, and above it is the fault entry LANE_RANGE. -/
def Obligations.RdlaneAnswersTheLane : Prop :=
  ∀ (k : Byte) (s : State), ∃ t, exec (.rdlane k) s = .next t ∧
    (k.toNat ≤ 24 → Answered s t (.data (laneAt s.lanes k.toNat)) ∧ t.block = s.block) ∧
    (24 < k.toNat → FaultEntry s t .laneRange)

/-! ## Scripts -/

/-- 30 R61: the pair a command assembles to decodes to that command, with the data operand in format ID and 0 else. -/
def Obligations.AssembledPairIsTheCommand : Prop :=
  ∀ (i : Instr) (v : Word), decode (assemble i v).1 = .instr i ∧
    (assemble i v).2 = if i.format = .id then v else 0

/-- 30 R62: LDSTATE, issued to a running block at a boundary, takes 25 steps, loads the 25 values and gives 25 empty
responses. -/
def Obligations.LdstateLoadsTheLaneFile : Prop :=
  ∀ (s : State) (v : Lanes) (rest : List HostEvent),
    s.cmdReady = true → s.inputs = issue (ldState v) ++ rest →
      ∃ t, core.run 25 s = .next t ∧ t.lanes = v ∧ SameStatus s t ∧ t.busy = false ∧ t.inputs = rest ∧
        t.resets = s.resets ∧ t.responses = s.responses ++ List.replicate 25 .noData

/-- 30 R62: ROUNDS, issued to a running block at a boundary, takes 24 steps and leaves the block that PERMUTE leaves. -/
def Obligations.RoundsHasTheEffectOfPermute : Prop :=
  ∀ (s : State) (rest : List HostEvent),
    s.cmdReady = true → s.rnd = 0 → s.inputs = issue rounds ++ rest →
      ∃ t u, core.run 24 s = .next t ∧ exec .permute s = .next u ∧ t.block = u.block ∧ t.inputs = rest

/-! ## Where the constants come from -/

/-- 41 R83: the register after t steps holds the residue of X^t modulo X^8 + X^6 + X^5 + X^4 + 1 over GF(2), so that its
bit 0, rc(t), is the constant term; rc(0) = 1; bit j of ROM[r] and bit 2^j - 1 of RC(r) are rc(j + 7r).  The generator
comes from general knowledge by the spec's own mark (93 G3; log 14), and the block contains none. -/
def Obligations.ConstantsComeFromTheGenerator : Prop :=
  (∀ t i : Nat, ((Polynomial.X : Polynomial (ZMod 2)) ^ t %ₘ
      (Polynomial.X ^ 8 + Polynomial.X ^ 6 + Polynomial.X ^ 5 + Polynomial.X ^ 4 + 1)).coeff i =
        if (lfsrRegister t).getLsbD i then 1 else 0) ∧
    (∀ t, lfsrBit t = (lfsrRegister t).getLsbD 0) ∧ lfsrBit 0 = true ∧
    ∀ (r : Fin 24) (j : Nat), j ≤ 6 →
      rom[r].getLsbD j = lfsrBit (j + 7 * r.val) ∧ (roundConstant r).getLsbD (2 ^ j - 1) = lfsrBit (j + 7 * r.val)
end

