-- ==== Sys2Proof/Laws/State.lean ====
section
/-! SUPPORT. One lemma per field per update of the state, each true by unfolding; no later proof unfolds a record update. -/

namespace Sys2Proof.Machine

@[simp] theorem State.setLanes_lanes (s : State) (A : Lanes) : (s.setLanes A).lanes = A := rfl
@[simp] theorem State.setLanes_rnd (s : State) (A : Lanes) : (s.setLanes A).rnd = s.rnd := rfl
@[simp] theorem State.setLanes_fault (s : State) (A : Lanes) : (s.setLanes A).fault = s.fault := rfl
@[simp] theorem State.setLanes_cause (s : State) (A : Lanes) : (s.setLanes A).cause = s.cause := rfl
@[simp] theorem State.setLanes_busy (s : State) (A : Lanes) : (s.setLanes A).busy = s.busy := rfl
@[simp] theorem State.setLanes_wdata (s : State) (A : Lanes) : (s.setLanes A).wdata = s.wdata := rfl
@[simp] theorem State.setLanes_inputs (s : State) (A : Lanes) : (s.setLanes A).inputs = s.inputs := rfl
@[simp] theorem State.setLanes_responses (s : State) (A : Lanes) : (s.setLanes A).responses = s.responses := rfl
@[simp] theorem State.setLanes_resets (s : State) (A : Lanes) : (s.setLanes A).resets = s.resets := rfl

@[simp] theorem State.setLane_lanes (s : State) (i : Fin 25) (v : Word) : (s.setLane i v).lanes = s.lanes.set i.val v i.isLt := rfl
@[simp] theorem State.setLane_rnd (s : State) (i : Fin 25) (v : Word) : (s.setLane i v).rnd = s.rnd := rfl
@[simp] theorem State.setLane_fault (s : State) (i : Fin 25) (v : Word) : (s.setLane i v).fault = s.fault := rfl
@[simp] theorem State.setLane_cause (s : State) (i : Fin 25) (v : Word) : (s.setLane i v).cause = s.cause := rfl
@[simp] theorem State.setLane_busy (s : State) (i : Fin 25) (v : Word) : (s.setLane i v).busy = s.busy := rfl
@[simp] theorem State.setLane_wdata (s : State) (i : Fin 25) (v : Word) : (s.setLane i v).wdata = s.wdata := rfl
@[simp] theorem State.setLane_inputs (s : State) (i : Fin 25) (v : Word) : (s.setLane i v).inputs = s.inputs := rfl
@[simp] theorem State.setLane_responses (s : State) (i : Fin 25) (v : Word) : (s.setLane i v).responses = s.responses := rfl
@[simp] theorem State.setLane_resets (s : State) (i : Fin 25) (v : Word) : (s.setLane i v).resets = s.resets := rfl

@[simp] theorem State.respond_lanes (s : State) (r : Response) : (s.respond r).lanes = s.lanes := rfl
@[simp] theorem State.respond_rnd (s : State) (r : Response) : (s.respond r).rnd = s.rnd := rfl
@[simp] theorem State.respond_fault (s : State) (r : Response) : (s.respond r).fault = s.fault := rfl
@[simp] theorem State.respond_cause (s : State) (r : Response) : (s.respond r).cause = s.cause := rfl
@[simp] theorem State.respond_busy (s : State) (r : Response) : (s.respond r).busy = false := rfl
@[simp] theorem State.respond_wdata (s : State) (r : Response) : (s.respond r).wdata = s.wdata := rfl
@[simp] theorem State.respond_inputs (s : State) (r : Response) : (s.respond r).inputs = s.inputs := rfl
@[simp] theorem State.respond_responses (s : State) (r : Response) : (s.respond r).responses = s.responses ++ [r] := rfl
@[simp] theorem State.respond_resets (s : State) (r : Response) : (s.respond r).resets = s.resets := rfl

@[simp] theorem State.raise_lanes (s : State) (c : Cause) : (s.raise c).lanes = s.lanes := rfl
@[simp] theorem State.raise_rnd (s : State) (c : Cause) : (s.raise c).rnd = s.rnd := rfl
@[simp] theorem State.raise_fault (s : State) (c : Cause) : (s.raise c).fault = true := rfl
@[simp] theorem State.raise_cause (s : State) (c : Cause) : (s.raise c).cause = c := rfl
@[simp] theorem State.raise_busy (s : State) (c : Cause) : (s.raise c).busy = false := rfl
@[simp] theorem State.raise_wdata (s : State) (c : Cause) : (s.raise c).wdata = s.wdata := rfl
@[simp] theorem State.raise_inputs (s : State) (c : Cause) : (s.raise c).inputs = s.inputs := rfl
@[simp] theorem State.raise_responses (s : State) (c : Cause) : (s.raise c).responses = s.responses ++ [.fault c] := rfl
@[simp] theorem State.raise_resets (s : State) (c : Cause) : (s.raise c).resets = s.resets := rfl

@[simp] theorem State.accept_lanes (s : State) (d : Word) : (s.accept d).lanes = s.lanes := rfl
@[simp] theorem State.accept_rnd (s : State) (d : Word) : (s.accept d).rnd = s.rnd := rfl
@[simp] theorem State.accept_fault (s : State) (d : Word) : (s.accept d).fault = s.fault := rfl
@[simp] theorem State.accept_cause (s : State) (d : Word) : (s.accept d).cause = s.cause := rfl
@[simp] theorem State.accept_busy (s : State) (d : Word) : (s.accept d).busy = true := rfl
@[simp] theorem State.accept_wdata (s : State) (d : Word) : (s.accept d).wdata = d := rfl
@[simp] theorem State.accept_inputs (s : State) (d : Word) : (s.accept d).inputs = s.inputs := rfl
@[simp] theorem State.accept_responses (s : State) (d : Word) : (s.accept d).responses = s.responses := rfl
@[simp] theorem State.accept_resets (s : State) (d : Word) : (s.accept d).resets = s.resets := rfl

@[simp] theorem State.applyReset_lanes (s : State) : (s.applyReset).lanes = resetLanes (s.resets + 1) := by dsimp only [State.applyReset, State.reset]
@[simp] theorem State.applyReset_rnd (s : State) : (s.applyReset).rnd = 0 := by dsimp only [State.applyReset, State.reset]
@[simp] theorem State.applyReset_fault (s : State) : (s.applyReset).fault = false := by dsimp only [State.applyReset, State.reset]
@[simp] theorem State.applyReset_cause (s : State) : (s.applyReset).cause = .noFault := by dsimp only [State.applyReset, State.reset]
@[simp] theorem State.applyReset_busy (s : State) : (s.applyReset).busy = false := by dsimp only [State.applyReset, State.reset]
@[simp] theorem State.applyReset_wdata (s : State) : (s.applyReset).wdata = 0 := by dsimp only [State.applyReset, State.reset]
@[simp] theorem State.applyReset_inputs (s : State) : (s.applyReset).inputs = s.inputs := by dsimp only [State.applyReset, State.reset]
@[simp] theorem State.applyReset_responses (s : State) : (s.applyReset).responses = s.responses := by dsimp only [State.applyReset, State.reset]
@[simp] theorem State.applyReset_resets (s : State) : (s.applyReset).resets = s.resets + 1 := by dsimp only [State.applyReset, State.reset]

@[simp] theorem State.taking_lanes (s : State) (d : Word) (rest : List HostEvent) : (s.taking d rest).lanes = s.lanes := rfl
@[simp] theorem State.taking_rnd (s : State) (d : Word) (rest : List HostEvent) : (s.taking d rest).rnd = s.rnd := rfl
@[simp] theorem State.taking_fault (s : State) (d : Word) (rest : List HostEvent) : (s.taking d rest).fault = s.fault := rfl
@[simp] theorem State.taking_cause (s : State) (d : Word) (rest : List HostEvent) : (s.taking d rest).cause = s.cause := rfl
@[simp] theorem State.taking_busy (s : State) (d : Word) (rest : List HostEvent) : (s.taking d rest).busy = true := rfl
@[simp] theorem State.taking_wdata (s : State) (d : Word) (rest : List HostEvent) : (s.taking d rest).wdata = d := rfl
@[simp] theorem State.taking_inputs (s : State) (d : Word) (rest : List HostEvent) : (s.taking d rest).inputs = rest := rfl
@[simp] theorem State.taking_responses (s : State) (d : Word) (rest : List HostEvent) : (s.taking d rest).responses = s.responses := rfl
@[simp] theorem State.taking_resets (s : State) (d : Word) (rest : List HostEvent) : (s.taking d rest).resets = s.resets := rfl

@[simp] theorem State.withOperand_lanes (s : State) (d : Word) : (s.withOperand d).lanes = s.lanes := rfl
@[simp] theorem State.withOperand_rnd (s : State) (d : Word) : (s.withOperand d).rnd = s.rnd := rfl
@[simp] theorem State.withOperand_fault (s : State) (d : Word) : (s.withOperand d).fault = s.fault := rfl
@[simp] theorem State.withOperand_cause (s : State) (d : Word) : (s.withOperand d).cause = s.cause := rfl
@[simp] theorem State.withOperand_busy (s : State) (d : Word) : (s.withOperand d).busy = s.busy := rfl
@[simp] theorem State.withOperand_wdata (s : State) (d : Word) : (s.withOperand d).wdata = d := rfl
@[simp] theorem State.withOperand_inputs (s : State) (d : Word) : (s.withOperand d).inputs = s.inputs := rfl
@[simp] theorem State.withOperand_responses (s : State) (d : Word) : (s.withOperand d).responses = s.responses := rfl
@[simp] theorem State.withOperand_resets (s : State) (d : Word) : (s.withOperand d).resets = s.resets := rfl

@[simp] theorem State.withFetchWord_lanes (s : State) (n w : Nat) : (s.withFetchWord n w).lanes = s.lanes := rfl
@[simp] theorem State.withFetchWord_rnd (s : State) (n w : Nat) : (s.withFetchWord n w).rnd = s.rnd := rfl
@[simp] theorem State.withFetchWord_fault (s : State) (n w : Nat) : (s.withFetchWord n w).fault = s.fault := rfl
@[simp] theorem State.withFetchWord_cause (s : State) (n w : Nat) : (s.withFetchWord n w).cause = s.cause := rfl
@[simp] theorem State.withFetchWord_busy (s : State) (n w : Nat) : (s.withFetchWord n w).busy = s.busy := rfl
@[simp] theorem State.withFetchWord_wdata (s : State) (n w : Nat) : (s.withFetchWord n w).wdata = s.wdata := rfl
@[simp] theorem State.withFetchWord_inputs (s : State) (n w : Nat) : (s.withFetchWord n w).inputs = .command (tableWord n w) 0 :: s.inputs := rfl
@[simp] theorem State.withFetchWord_responses (s : State) (n w : Nat) : (s.withFetchWord n w).responses = s.responses := rfl
@[simp] theorem State.withFetchWord_resets (s : State) (n w : Nat) : (s.withFetchWord n w).resets = s.resets := rfl

@[simp] theorem permuteTurn_lanes (s : State) (r : Fin 24) : (permuteTurn s r).lanes = roundLanes s.lanes r := by dsimp only [permuteTurn]
@[simp] theorem permuteTurn_rnd (s : State) (r : Fin 24) : (permuteTurn s r).rnd = if r.val = 23 then 0 else s.rnd + 1 := by dsimp only [permuteTurn]
@[simp] theorem permuteTurn_fault (s : State) (r : Fin 24) : (permuteTurn s r).fault = s.fault := by dsimp only [permuteTurn]
@[simp] theorem permuteTurn_cause (s : State) (r : Fin 24) : (permuteTurn s r).cause = s.cause := by dsimp only [permuteTurn]
@[simp] theorem permuteTurn_busy (s : State) (r : Fin 24) : (permuteTurn s r).busy = s.busy := by dsimp only [permuteTurn]
@[simp] theorem permuteTurn_wdata (s : State) (r : Fin 24) : (permuteTurn s r).wdata = s.wdata := by dsimp only [permuteTurn]
@[simp] theorem permuteTurn_inputs (s : State) (r : Fin 24) : (permuteTurn s r).inputs = s.inputs := by dsimp only [permuteTurn]
@[simp] theorem permuteTurn_responses (s : State) (r : Fin 24) : (permuteTurn s r).responses = s.responses := by dsimp only [permuteTurn]
@[simp] theorem permuteTurn_resets (s : State) (r : Fin 24) : (permuteTurn s r).resets = s.resets := by dsimp only [permuteTurn]

@[simp] theorem State.reset_rnd : State.reset.rnd = 0 := rfl
@[simp] theorem State.reset_fault : State.reset.fault = false := rfl
@[simp] theorem State.reset_cause : State.reset.cause = .noFault := rfl
@[simp] theorem State.reset_busy : State.reset.busy = false := rfl
@[simp] theorem State.reset_wdata : State.reset.wdata = 0 := rfl
@[simp] theorem State.reset_inputs : State.reset.inputs = [] := rfl
@[simp] theorem State.reset_responses : State.reset.responses = [] := rfl
@[simp] theorem State.reset_resets : State.reset.resets = 0 := rfl
@[simp] theorem State.reset_lanes : State.reset.lanes = resetLanes 0 := rfl

/-- A lane of a lane file built from a function. -/
theorem buildLanes_get (f : Fin 25 → Word) (i : Fin 25) : (buildLanes f)[i] = f i := by
  fin_cases i <;> rfl

/-- The same with the lane given by its number. -/
@[simp] theorem buildLanes_getElem (f : Fin 25 → Word) (k : Nat) (h : k < 25) : (buildLanes f)[k] = f ⟨k, h⟩ :=
  buildLanes_get f ⟨k, h⟩

/-- The lanes after reset number `n` are the free values of Config. -/
@[simp] theorem resetLanes_getElem (n k : Nat) (h : k < 25) : (resetLanes n)[k] = Config.resetLane n ⟨k, h⟩ :=
  buildLanes_get _ ⟨k, h⟩

/-- The state a command is executed in, as the acceptance builds it. -/
theorem taking_eq_accept (s : State) (d : Word) (rest : List HostEvent) :
    s.taking d rest = { s with inputs := rest }.accept d := rfl

end Sys2Proof.Machine
end

