-- ==== Sys2Proof/Laws/Ops.lean ====
section
/-! SUPPORT. What each shared operation can do, said once: the fault entry, the response, the ranged operands, the
acceptance of an event, and the step. -/

namespace Sys2Proof.Machine

/-- `pick` reads the entry. -/
@[simp] theorem pick_eq {α : Type} [Inhabited α] {n : Nat} (v : Vector α n) (i : Fin n) : pick v i = v[i] := by
  simp [pick]

/-- The fault entry meets its description (60 R128). -/
theorem raise_faultEntry (s : State) (c : Cause) : FaultEntry s (s.raise c) c := by
  simp [FaultEntry, Answered]

/-- A response is one response more and ends the command (20 R47). -/
theorem respond_answered (s : State) (r : Response) : Answered s (s.respond r) r := by
  simp [Answered]

/-- A command that replaces the lane file and answers (20 R47). -/
theorem setLanes_respond_answered (s : State) (A : Lanes) (r : Response) :
    Answered s ((s.setLanes A).respond r) r := by
  simp [Answered]

/-- A command that writes one lane and answers (20 R47). -/
theorem setLane_respond_answered (s : State) (i : Fin 25) (v : Word) (r : Response) :
    Answered s ((s.setLane i v).respond r) r := by
  simp [Answered]

/-- Answering leaves `RND`, `FAULT` and `CAUSE` alone. -/
theorem respond_sameStatus (s : State) (r : Response) : SameStatus s (s.respond r) := by
  simp [SameStatus]

/-- So does replacing the lane file. -/
theorem setLanes_respond_sameStatus (s : State) (A : Lanes) (r : Response) :
    SameStatus s ((s.setLanes A).respond r) := by
  simp [SameStatus]

/-- So does writing one lane. -/
theorem setLane_respond_sameStatus (s : State) (i : Fin 25) (v : Word) (r : Response) :
    SameStatus s ((s.setLane i v).respond r) := by
  simp [SameStatus]

/-- The block is the four architectural fields. -/
theorem block_ext {s t : State} (hl : t.lanes = s.lanes) (h : SameStatus s t) : t.block = s.block := by
  obtain ⟨h1, h2, h3⟩ := h
  simp [State.block, hl, h1, h2, h3]

/-- A response leaves the block alone (20 R48). -/
@[simp] theorem respond_block (s : State) (r : Response) : (s.respond r).block = s.block := by
  simp [State.block]

/-- A round index in range is taken as it stands (30 R53). -/
theorem withRound_of_le {imm : Byte} (h : imm.toNat ≤ 23) (s : State)
    (run : Fin 24 → Host.Outcome State Fault Refusal) :
    withRound imm s run = run ⟨imm.toNat, by omega⟩ := by
  simp [withRound, roundIndex?, Nat.lt_succ_of_le h]

/-- A round index out of range is the fault entry `RC_RANGE` (60 R123). -/
theorem withRound_of_gt {imm : Byte} (h : 23 < imm.toNat) (s : State)
    (run : Fin 24 → Host.Outcome State Fault Refusal) : withRound imm s run = .next (s.raise .rcRange) := by
  simp [withRound, roundIndex?, trap, Nat.not_lt.mpr h]

/-- A lane index in range is taken as it stands (30 R54). -/
theorem withLane_of_le {imm : Byte} (h : imm.toNat ≤ 24) (s : State)
    (run : Fin 25 → Host.Outcome State Fault Refusal) :
    withLane imm s run = run ⟨imm.toNat, by omega⟩ := by
  simp [withLane, laneIndex?, Nat.lt_succ_of_le h]

/-- A lane index out of range is the fault entry `LANE_RANGE` (60 R124). -/
theorem withLane_of_gt {imm : Byte} (h : 24 < imm.toNat) (s : State)
    (run : Fin 25 → Host.Outcome State Fault Refusal) : withLane imm s run = .next (s.raise .laneRange) := by
  simp [withLane, laneIndex?, trap, Nat.not_lt.mpr h]

/-- `cmd_ready` (20 R46). -/
theorem cmdReady_iff (s : State) : s.cmdReady = true ↔ s.busy = false ∧ s.fault = false := by
  simp [State.cmdReady]

/-- Nothing is pending. -/
theorem takeEvent_nil {s : State} (h : s.inputs = []) : takeEvent s = .idle := by
  simp [takeEvent, h]

/-- A reset event, at a boundary or during a command. -/
theorem takeEvent_reset {s : State} {e : HostEvent} {rest : List HostEvent} (h : s.inputs = e :: rest)
    (he : e = .reset ∨ ∃ c d, e = .abandoned c d) :
    takeEvent s = .restarted { s with inputs := rest }.applyReset := by
  obtain rfl | ⟨c, d, rfl⟩ := he <;> simp [takeEvent, h]

/-- A command offered to a ready block is accepted. -/
theorem takeEvent_command {s : State} {c : CmdWord} {d : Word} {rest : List HostEvent} (hr : s.cmdReady = true)
    (h : s.inputs = .command c d :: rest) : takeEvent s = .accepted c (s.taking d rest) := by
  simp [takeEvent, h, hr, taking_eq_accept]

/-- A command offered to a block that is not ready is not accepted. -/
theorem takeEvent_command_blocked {s : State} {c : CmdWord} {d : Word} {rest : List HostEvent}
    (hr : s.cmdReady = false) (h : s.inputs = .command c d :: rest) :
    takeEvent s = .blocked (if s.fault then .halted else .busy) := by
  simp [takeEvent, h, hr]

/-- Everything the acceptance of an event can answer. -/
theorem takeEvent_cases (s : State) :
    (s.inputs = [] ∧ takeEvent s = .idle) ∨
    (∃ e rest, s.inputs = e :: rest ∧ (e = .reset ∨ ∃ c d, e = .abandoned c d) ∧
      takeEvent s = .restarted { s with inputs := rest }.applyReset) ∨
    (∃ c d rest, s.inputs = .command c d :: rest ∧ s.cmdReady = true ∧
      takeEvent s = .accepted c (s.taking d rest)) ∨
    (∃ c d rest, s.inputs = .command c d :: rest ∧ s.cmdReady = false ∧
      takeEvent s = .blocked (if s.fault then .halted else .busy)) := by
  rcases h : s.inputs with _ | ⟨e, rest⟩
  · exact .inl ⟨rfl, takeEvent_nil h⟩
  · rcases e with ⟨c, d⟩ | _ | ⟨c, d⟩
    · cases hr : s.cmdReady
      · exact .inr (.inr (.inr ⟨c, d, rest, rfl, rfl, takeEvent_command_blocked hr h⟩))
      · exact .inr (.inr (.inl ⟨c, d, rest, rfl, rfl, takeEvent_command hr h⟩))
    · exact .inr (.inl ⟨_, rest, rfl, .inl rfl, takeEvent_reset h (.inl rfl)⟩)
    · exact .inr (.inl ⟨_, rest, rfl, .inr ⟨c, d, rfl⟩, takeEvent_reset h (.inr ⟨c, d, rfl⟩)⟩)

/-- A step that answers a next state: the block idles, it is reset, or it executes an accepted word. -/
theorem step_next_cases {s t : State} (h : step s = .next t) :
    (s.inputs = [] ∧ t = s) ∨
    (∃ e rest, s.inputs = e :: rest ∧ (e = .reset ∨ ∃ c d, e = .abandoned c d) ∧
      t = { s with inputs := rest }.applyReset) ∨
    (∃ c d rest, s.inputs = .command c d :: rest ∧ s.cmdReady = true ∧
      runWord c (s.taking d rest) = .next t) := by
  rcases takeEvent_cases s with ⟨hi, ht⟩ | ⟨e, rest, hi, he, ht⟩ | ⟨c, d, rest, hi, hr, ht⟩ | ⟨c, d, rest, hi, hr, ht⟩ <;>
    simp only [step, ht, Host.Outcome.next.injEq, reduceCtorEq] at h
  · exact .inl ⟨hi, h.symm⟩
  · exact .inr (.inl ⟨e, rest, hi, he, h.symm⟩)
  · exact .inr (.inr ⟨c, d, rest, hi, hr, h⟩)

/-- An accepted word is executed as the command it decodes to, or is the fault entry `ILLEGAL_CMD`. -/
theorem runWord_cases (c : CmdWord) (s : State) :
    (∃ i, decode c = .instr i ∧ runWord c s = exec i s) ∨
      (∃ e, decode c = .illegal e ∧ runWord c s = .next (s.raise .illegalCmd)) := by
  rcases h : decode c with i | e
  · exact .inl ⟨i, rfl, by simp [runWord, h]⟩
  · exact .inr ⟨e, rfl, by simp [runWord, h, execIllegal, trap]⟩

/-- Taking the fetched table word: the next step executes it, from a ready block. -/
theorem step_withFetchWord {s : State} (hr : s.cmdReady = true) (n w : Nat) :
    step (s.withFetchWord n w) = runWord (tableWord n w) (s.taking 0 s.inputs) := by
  have hr' : (s.withFetchWord n w).cmdReady = true := by simpa [State.cmdReady] using hr
  simp [step, takeEvent_command hr' rfl]; rfl

end Sys2Proof.Machine
end

