-- ==== Sys2Proof/Laws/Lanes.lean ====
section
/-! SUPPORT. The lanes of each transform and of the lane operations, one lemma each, so that no proof unfolds a
transform. -/

namespace Sys2Proof.Machine

/-- A lane by its number. -/
theorem laneAt_of_lt (A : Lanes) {k : Nat} (h : k < 25) : laneAt A k = A[k] := by simp [laneAt, h]

/-- A lane index is built from its column and row (10 R11). -/
@[simp] theorem laneIndex_val (x y : Fin 5) : (laneIndex x y).val = x.val + 5 * y.val := rfl

/-- The column of a lane index. -/
@[simp] theorem column_laneIndex (x y : Fin 5) : column (laneIndex x y) = x := by
  apply Fin.ext; simp [column, Nat.mod_eq_of_lt x.isLt]

/-- The row of a lane index. -/
@[simp] theorem row_laneIndex (x y : Fin 5) : row (laneIndex x y) = y := by
  apply Fin.ext; simp [row]; omega

/-- Every lane is the lane of its column and row. -/
@[simp] theorem laneIndex_column_row (i : Fin 25) : laneIndex (column i) (row i) = i := by
  apply Fin.ext; simp [column, row]; omega

/-- Two lane files with the same lanes are equal. -/
theorem lanes_ext {A B : Lanes} (h : ∀ i : Fin 25, A[i] = B[i]) : A = B := by
  apply Vector.ext; intro i hi; exact h ⟨i, hi⟩

/-- A lane file written out lane by lane. -/
theorem lanes_eta (A : Lanes) : A = buildLanes fun i => A[i] :=
  lanes_ext fun i => (buildLanes_get (fun i => A[i]) i).symm

/-- Five words built from a function. -/
theorem buildColumns_get (f : Fin 5 → Word) (x : Fin 5) : (buildColumns f)[x] = f x := by
  fin_cases x <;> rfl

/-- Theta's `C` (42 R85). -/
theorem thetaC_get (A : Lanes) (x : Fin 5) :
    (thetaC A)[x] = A[laneIndex x 0] ^^^ A[laneIndex x 1] ^^^ A[laneIndex x 2] ^^^ A[laneIndex x 3] ^^^
      A[laneIndex x 4] := by
  simp only [thetaC, buildColumns_get, pick_eq]

/-- Theta's `D` (42 R85). -/
theorem thetaD_get (C : Vector Word 5) (x : Fin 5) : (thetaD C)[x] = rotl64 C[x + 1] 1 ^^^ C[x + 4] := by
  simp only [thetaD, buildColumns_get, pick_eq]

/-- A lane of Theta (42 R85). -/
theorem theta_get (A : Lanes) (i : Fin 25) : (theta A)[i] = A[i] ^^^ (thetaD (thetaC A))[column i] := by
  simp only [theta, thetaApply, buildLanes_get, pick_eq]

/-- A lane of Rho (42 R87). -/
theorem rho_get (A : Lanes) (i : Fin 25) : (rho A)[i] = rotl64 A[i] rhoOffset[i] := by
  simp only [rho, buildLanes_get, pick_eq]

/-- A lane of Pi (42 R89). -/
theorem pi_get (A : Lanes) (k : Fin 25) : (pi A)[k] = A[piSource k] := by
  simp only [pi, buildLanes_get, pick_eq]

/-- A lane of Chi (42 R92). -/
theorem chi_get (A : Lanes) (i : Fin 25) :
    (chi A)[i] = A[i] ^^^ (~~~A[laneIndex (column i + 1) (row i)] &&& A[laneIndex (column i + 2) (row i)]) := by
  simp only [chi, buildLanes_get, pick_eq]

/-- Lane 0 of Iota (42 R95). -/
@[simp] theorem iota_getElem_zero (A : Lanes) (r : Fin 24) : (iota A r)[0] = A[0] ^^^ roundConstant r := by
  simp [iota]

/-- The other lanes of Iota (42 R95). -/
theorem iota_getElem_of_ne (A : Lanes) (r : Fin 24) (i : Fin 25) (h : i.val ≠ 0) : (iota A r)[i] = A[i] := by
  simpa [iota] using Vector.getElem_set_ne (by omega) i.isLt (by omega)

/-- The lane written (44 R110). -/
theorem setLane_getElem_self (s : State) (i : Fin 25) (v : Word) : (s.setLane i v).lanes[i] = v := by
  simp

/-- The lanes not written (44 R110). -/
theorem setLane_getElem_of_ne (s : State) (i j : Fin 25) (v : Word) (h : j ≠ i) :
    (s.setLane i v).lanes[j] = s.lanes[j] := by
  simpa using Vector.getElem_set_ne (by omega) j.isLt (by omega)

/-- A lane of the XOR of two lane files. -/
theorem xorLanes_get (A B : Lanes) (i : Fin 25) : (xorLanes A B)[i] = A[i] ^^^ B[i] :=
  buildLanes_get _ i

/-- PERMUTE's loop leaves the lanes of the 24 rounds (42 R99, R100). -/
theorem permuteTurn_foldl_lanes (l : List (Fin 24)) (s : State) :
    (l.foldl permuteTurn s).lanes = l.foldl roundLanes s.lanes := by
  induction l generalizing s with
  | nil => rfl
  | cons r l ih => simpa using ih (permuteTurn s r)

/-- PERMUTE's loop touches nothing but the lanes and `RND`. -/
theorem permuteTurn_foldl_frame (l : List (Fin 24)) (s : State) :
    ∃ A k, l.foldl permuteTurn s = { s with lanes := A, rnd := k } := by
  induction l generalizing s with
  | nil => exact ⟨s.lanes, s.rnd, rfl⟩
  | cons r l ih =>
    obtain ⟨A, k, h⟩ := ih (permuteTurn s r)
    exact ⟨A, k, by simpa [permuteTurn] using h⟩

end Sys2Proof.Machine
end

