-- ==== Sys2Proof/Laws/Exec.lean ====
section
/-! SUPPORT. The equation of each command, and what any command can do, said once: it answers in a block whose lanes
alone may have changed (and RND after PERMUTE), or it is the fault entry. -/

namespace Sys2Proof.Machine

theorem exec_rotl (n : Byte) (s : State) :
    exec (.rotl n) s = .next (s.respond (.data (rotl64 s.wdata (n.toNat % 64)))) := rfl

theorem exec_rconst_of_le {r : Byte} (h : r.toNat ≤ 23) (s : State) :
    exec (.rconst r) s = .next (s.respond (.data (roundConstant ⟨r.toNat, by omega⟩))) :=
  withRound_of_le h s _

theorem exec_rconst_of_gt {r : Byte} (h : 23 < r.toNat) (s : State) :
    exec (.rconst r) s = .next (s.raise .rcRange) := withRound_of_gt h s _

theorem exec_theta (s : State) : exec .theta s = .next ((s.setLanes (theta s.lanes)).respond .noData) := rfl

theorem exec_rho (s : State) : exec .rho s = .next ((s.setLanes (rho s.lanes)).respond .noData) := rfl

theorem exec_pi (s : State) : exec .pi s = .next ((s.setLanes (pi s.lanes)).respond .noData) := rfl

theorem exec_chi (s : State) : exec .chi s = .next ((s.setLanes (chi s.lanes)).respond .noData) := rfl

theorem exec_iota_of_le {r : Byte} (h : r.toNat ≤ 23) (s : State) :
    exec (.iota r) s = .next ((s.setLanes (iota s.lanes ⟨r.toNat, by omega⟩)).respond .noData) :=
  withRound_of_le h s _

theorem exec_iota_of_gt {r : Byte} (h : 23 < r.toNat) (s : State) :
    exec (.iota r) s = .next (s.raise .rcRange) := withRound_of_gt h s _

theorem exec_round_of_le {r : Byte} (h : r.toNat ≤ 23) (s : State) :
    exec (.round r) s = .next ((s.setLanes (roundLanes s.lanes ⟨r.toNat, by omega⟩)).respond .noData) :=
  withRound_of_le h s _

theorem exec_round_of_gt {r : Byte} (h : 23 < r.toNat) (s : State) :
    exec (.round r) s = .next (s.raise .rcRange) := withRound_of_gt h s _

theorem exec_extract256 (s : State) :
    exec .extract256 s = .next (s.respond (.digest (extract s.lanes))) := rfl

theorem exec_wrlane_of_le {k : Byte} (h : k.toNat ≤ 24) (s : State) :
    exec (.wrlane k) s = .next ((s.setLane ⟨k.toNat, by omega⟩ s.wdata).respond .noData) :=
  withLane_of_le h s _

theorem exec_wrlane_of_gt {k : Byte} (h : 24 < k.toNat) (s : State) :
    exec (.wrlane k) s = .next (s.raise .laneRange) := withLane_of_gt h s _

theorem exec_rdlane_of_le {k : Byte} (h : k.toNat ≤ 24) (s : State) :
    exec (.rdlane k) s = .next (s.respond (.data (s.lanes[k.toNat]'(by omega)))) := by
  simp [exec, execRdlane, withLane_of_le h, finish]

theorem exec_rdlane_of_gt {k : Byte} (h : 24 < k.toNat) (s : State) :
    exec (.rdlane k) s = .next (s.raise .laneRange) := withLane_of_gt h s _

/-- `RND` through PERMUTE's loop, apart from the rest of the state. -/
theorem permuteTurn_foldl_rnd (l : List (Fin 24)) (s : State) :
    (l.foldl permuteTurn s).rnd = l.foldl (fun k r => if r.val = 23 then 0 else k + 1) s.rnd := by
  induction l generalizing s with
  | nil => rfl
  | cons r l ih => simpa using ih (permuteTurn s r)

/-- PERMUTE leaves the lanes of the 24 rounds and `RND` = 0 (42 R99, R100). -/
theorem exec_permute (s : State) :
    exec .permute s = .next ({ s with lanes := permuteLanes s.lanes, rnd := 0 }.respond .noData) := by
  obtain ⟨A, k, h⟩ := permuteTurn_foldl_frame (List.finRange 24) { s with rnd := 0 }
  have hA := permuteTurn_foldl_lanes (List.finRange 24) { s with rnd := 0 }
  have hk := permuteTurn_foldl_rnd (List.finRange 24) { s with rnd := 0 }
  rw [h] at hA hk
  have h0 : (List.finRange 24).foldl (fun (k : BitVec 5) r => if r.val = 23 then 0 else k + 1) 0 = 0 := by decide
  simp only [exec, execPermute, finish, h]
  simp only [h0] at hk
  simp only [hk, show A = permuteLanes s.lanes from hA]

/-- What a command can do. -/
theorem exec_shape (i : Instr) (s : State) :
    (i.WellFormed ∧ ∃ A r, exec i s =
      .next ({ s with lanes := A, rnd := if i = Instr.permute then 0 else s.rnd }.respond r)) ∨
    (¬ i.WellFormed ∧ ∃ c, (c = .rcRange ∨ c = .laneRange) ∧ exec i s = .next (s.raise c)) := by
  have round {r : Byte} {P Q : Prop} (hp : r.toNat ≤ 23 → P) (hq : 23 < r.toNat → Q) :
      (decide (r.toNat ≤ 23) = true ∧ P) ∨ (¬ decide (r.toNat ≤ 23) = true ∧ Q) := by
    rcases Nat.lt_or_ge 23 r.toNat with h | h
    · exact .inr ⟨by simpa using h, hq h⟩
    · exact .inl ⟨by simpa using h, hp h⟩
  have lane {k : Byte} {P Q : Prop} (hp : k.toNat ≤ 24 → P) (hq : 24 < k.toNat → Q) :
      (decide (k.toNat ≤ 24) = true ∧ P) ∨ (¬ decide (k.toNat ≤ 24) = true ∧ Q) := by
    rcases Nat.lt_or_ge 24 k.toNat with h | h
    · exact .inr ⟨by simpa using h, hq h⟩
    · exact .inl ⟨by simpa using h, hp h⟩
  cases i with
  | rotl n => exact .inl ⟨rfl, s.lanes, _, exec_rotl n s⟩
  | rconst r => exact round (fun h => ⟨s.lanes, _, exec_rconst_of_le h s⟩) fun h => ⟨_, .inl rfl, exec_rconst_of_gt h s⟩
  | theta => exact .inl ⟨rfl, _, _, exec_theta s⟩
  | rho => exact .inl ⟨rfl, _, _, exec_rho s⟩
  | pi => exact .inl ⟨rfl, _, _, exec_pi s⟩
  | chi => exact .inl ⟨rfl, _, _, exec_chi s⟩
  | iota r => exact round (fun h => ⟨_, _, exec_iota_of_le h s⟩) fun h => ⟨_, .inl rfl, exec_iota_of_gt h s⟩
  | round r => exact round (fun h => ⟨_, _, exec_round_of_le h s⟩) fun h => ⟨_, .inl rfl, exec_round_of_gt h s⟩
  | permute => exact .inl ⟨rfl, _, _, exec_permute s⟩
  | extract256 => exact .inl ⟨rfl, s.lanes, _, exec_extract256 s⟩
  | wrlane k => exact lane (fun h => ⟨_, _, exec_wrlane_of_le h s⟩) fun h => ⟨_, .inr rfl, exec_wrlane_of_gt h s⟩
  | rdlane k => exact lane (fun h => ⟨s.lanes, _, exec_rdlane_of_le h s⟩) fun h => ⟨_, .inr rfl, exec_rdlane_of_gt h s⟩

/-- Every command answers a next state (20 R47). -/
theorem exec_next (i : Instr) (s : State) : ∃ t, exec i s = .next t := by
  rcases exec_shape i s with ⟨_, _, _, h⟩ | ⟨_, _, _, h⟩ <;> exact ⟨_, h⟩

@[simp] theorem execAll_nil (s : State) : execAll [] s = .next s := rfl

theorem execAll_cons {i : Instr} {s t : State} (h : exec i s = .next t) (rest : List Instr) :
    execAll (i :: rest) s = execAll rest t := by
  simp [execAll, h]

@[simp] theorem execEach_nil (s : State) : execEach [] s = .next s := rfl

theorem execEach_cons {i : Instr} {d : Word} {s t : State} (h : exec i (s.withOperand d) = .next t)
    (rest : List (Instr × Word)) : execEach ((i, d) :: rest) s = execEach rest t := by
  simp [execEach, h]

end Sys2Proof.Machine
end

