-- ==== Sys2Proof/Laws/PerInstr.lean ====
section
/-! SUPPORT. Per-instruction statements about the encoding: the encoded word has the row's `match` under the row's
`mask`, and its fields are the command's (30_encoding.md R50, R57). -/

namespace Sys2Proof.Laws.EncodedWord

/-- The encoded word of a command fits its row of the opcode map, and its fields are `OP`, 0 and `IMM`. -/
def Statement (i : Instr) : Prop :=
  encode i &&& i.maskWord = i.matchWord ∧ opField (encode i) = i.op ∧ rsvField (encode i) = 0 ∧
    immField (encode i) = i.imm

theorem rotl (n : Byte) : Statement (.rotl n) := by revert n; unfold Statement; decide +kernel
theorem rconst (r : Byte) : Statement (.rconst r) := by revert r; unfold Statement; decide +kernel
theorem theta : Statement .theta := by unfold Statement; decide
theorem rho : Statement .rho := by unfold Statement; decide
theorem pi : Statement .pi := by unfold Statement; decide
theorem chi : Statement .chi := by unfold Statement; decide
theorem iota (r : Byte) : Statement (.iota r) := by revert r; unfold Statement; decide +kernel
theorem round (r : Byte) : Statement (.round r) := by revert r; unfold Statement; decide +kernel
theorem permute : Statement .permute := by unfold Statement; decide
theorem extract256 : Statement .extract256 := by unfold Statement; decide
theorem wrlane (i : Byte) : Statement (.wrlane i) := by revert i; unfold Statement; decide +kernel
theorem rdlane (i : Byte) : Statement (.rdlane i) := by revert i; unfold Statement; decide +kernel

end Sys2Proof.Laws.EncodedWord
end

