-- ==== Sys2Proof/Laws/RoundConstant.lean ====
section
/-! SUPPORT. The generator of the round constants, and the ROM held against it (41_round_constant.md R83). -/

namespace Sys2Proof.Laws

open Sys2Proof.Machine

@[simp] theorem lfsrRegister_zero : lfsrRegister 0 = 0x01 := rfl
@[simp] theorem lfsrRegister_succ (t : Nat) : lfsrRegister (t + 1) = lfsrStep (lfsrRegister t) := rfl

/-- What one step does to each bit: bit `i` takes bit `i - 1`, and bit 7, shifted out, comes back at 0, 4, 5 and 6. -/
theorem lfsrStep_getLsbD (r : Byte) (i : Nat) (hi : i < 8) :
    (lfsrStep r).getLsbD i =
      ((decide (0 < i) && r.getLsbD (i - 1)) ^^ (r.getLsbD 7 && decide (i = 0 ∨ i = 4 ∨ i = 5 ∨ i = 6))) := by
  revert r i; decide +kernel

/-- `ROM[r][j] = rc(j + 7r)` for `j` in 0..6, and bit 7 is 0 (41 R78, R83). -/
theorem rom_matches_generator :
    ∀ r : Fin 24, (∀ j : Fin 7, (rom[r]).getLsbD j = lfsrBit (j + 7 * r)) ∧ (rom[r]).getLsbD 7 = false := by
  decide +kernel

end Sys2Proof.Laws
end

