-- ==== Sys2Proof/Tests/Slice0.lean ====
section
/-! SUPPORT. Tests: ill-formed terms, decoding of words written out from the opcode map, one step of each command
with results from 95_test_vectors.md, and a witness for the hypotheses of each statement that has some. -/

-- One theorem after the other: checked side by side, the tests start a thread each, and the stacks of all of them
-- together pass the memory limit of the check.
set_option Elab.async false

namespace Sys2Proof.Tests

open Sys2Proof.Machine

/-- A running block with these lanes, a command in progress and this data operand. -/
def running (A : Lanes) (d : Word) : State := { State.reset with lanes := A, wdata := d, busy := true }

/-- A ready block with these lanes, offered one command. -/
def offered (A : Lanes) (c : CmdWord) (d : Word) : State :=
  { State.reset with lanes := A, inputs := [.command c d] }

/-- A halted block. -/
def halted (es : List HostEvent) : State :=
  { State.reset with fault := true, cause := .rcRange, inputs := es }

/-- 25 lanes with one value. -/
def allLanes (v : Word) : Lanes := Vector.replicate 25 v

/-- Lane `i` is `i`. -/
def numbered : Lanes := Vector.ofFn fun i : Fin 25 => BitVec.ofNat 64 i.val

/-- The State `G` of 95 section 3.9. -/
def stateG : Lanes := Vector.ofFn fun i : Fin 25 => 0x9E3779B97F4A7C15 * BitVec.ofNat 64 (i.val + 1)

/-- A lane after a step that answers a next state. -/
def laneAfter (o : Host.Outcome State Fault Refusal) (i : Fin 25) : Option Word :=
  match o with
  | .next t => some t.lanes[i]
  | .fault _ | .refused _ => none

/-- The last response after a step that answers a next state. -/
def answer (o : Host.Outcome State Fault Refusal) : Option Response :=
  match o with
  | .next t => t.responses.getLast?
  | .fault _ | .refused _ => none

/-- `STATUS` after a step that answers a next state. -/
def statusAfter (o : Host.Outcome State Fault Refusal) : Option (BitVec 8) :=
  match o with
  | .next t => some t.status
  | .fault _ | .refused _ => none

/-! ## Well-formedness: a term that each check refuses (30 R53, R54) -/

theorem test_illformed_rconst : ¬ (Instr.rconst 24).WellFormed := by decide
theorem test_illformed_iota : ¬ (Instr.iota 24).WellFormed := by decide
theorem test_illformed_round : ¬ (Instr.round 0xFF).WellFormed := by decide
theorem test_illformed_wrlane : ¬ (Instr.wrlane 25).WellFormed := by decide
theorem test_illformed_rdlane : ¬ (Instr.rdlane 0xFF).WellFormed := by decide
theorem test_wellformed_bounds :
    (Instr.rconst 23).WellFormed ∧ (Instr.wrlane 24).WellFormed ∧ (Instr.rotl 0xFF).WellFormed := by decide

/-! ## Decoding: OP, RSV, IMM written out from 30 R50 and R57 -/

theorem test_decode_rotl : decode 0b0001000011111111 = .instr (.rotl 255) := by decide
theorem test_decode_rconst : decode 0b0010000000010111 = .instr (.rconst 23) := by decide
theorem test_decode_theta : decode 0b0011000000000000 = .instr .theta := by decide
theorem test_decode_rho : decode 0b0100000000000000 = .instr .rho := by decide
theorem test_decode_pi : decode 0b0101000000000000 = .instr .pi := by decide
theorem test_decode_chi : decode 0b0110000000000000 = .instr .chi := by decide
theorem test_decode_iota : decode 0b0111000000010111 = .instr (.iota 23) := by decide
theorem test_decode_round : decode 0b1000000011111111 = .instr (.round 255) := by decide
theorem test_decode_permute : decode 0b1001000000000000 = .instr .permute := by decide
theorem test_decode_extract256 : decode 0b1010000000000000 = .instr .extract256 := by decide
theorem test_decode_wrlane : decode 0b1011000000010000 = .instr (.wrlane 16) := by decide
theorem test_decode_rdlane : decode 0b1100000000011000 = .instr (.rdlane 24) := by decide
/-- V-DEC-1 to V-DEC-8. -/
theorem test_decode_illegal :
    decode 0x0000 = .illegal (.reservedOp 0) ∧ decode 0xD000 = .illegal (.reservedOp 0xD) ∧
      decode 0xFFFF = .illegal (.reservedBits 0xF) ∧ decode 0x3001 = .illegal (.immediateNotZero 1) ∧
      decode 0xA0FF = .illegal (.immediateNotZero 0xFF) ∧ decode 0x1104 = .illegal (.reservedBits 1) ∧
      decode 0x2118 = .illegal (.reservedBits 1) ∧ decode 0xB819 = .illegal (.reservedBits 8) := by decide
theorem test_decodeTableWord : decodeTableWord 16 0xB018 = some (.wrlane 24) ∧ decodeTableWord 16 0x3001 = none ∧
    decodeTableWord 8 0x00 = none := by decide

/-! ## ROTL and RCONST -/

/-- V-ROT-8: 255 acts as 63. -/
theorem test_rotl_reduces : answer (exec (.rotl 255) (running (allLanes 0) 0x0123456789ABCDEF)) =
    some (.data 0x8091A2B3C4D5E6F7) := by decide +kernel
/-- V-ROT-5: a shift by the width is the identity. -/
theorem test_rotl_by_width : answer (exec (.rotl 64) (running (allLanes 0) 0x0123456789ABCDEF)) =
    some (.data 0x0123456789ABCDEF) := by decide +kernel
/-- S1, round 2. -/
theorem test_rconst : answer (exec (.rconst 2) (running (allLanes 0) 0)) = some (.data 0x800000000000808A) := by
  decide +kernel
/-- V-RC-24: no wrap to entry 0. -/
theorem test_rconst_24 : answer (exec (.rconst 24) (running (allLanes 0) 0)) = some (.fault .rcRange) ∧
    statusAfter (exec (.rconst 24) (running (allLanes 0) 0)) = some 0x06 := by decide +kernel

/-! ## The transforms -/

/-- V-STEP-1, lanes 0 and 24 of THETA on `G`. -/
theorem test_theta : laneAfter (exec .theta (running stateG 0)) 0 = some 0xF5477E47F3F593E0 ∧
    laneAfter (exec .theta (running stateG 0)) 24 = some 0xB5A4768C7267B77E := by decide +kernel
/-- V-TH-2: the rotation wraps. -/
theorem test_theta_wraps :
    laneAfter (exec .theta (running ((allLanes 0).set 12 0x8000000000000000) 0)) 21 = some 1 ∧
      laneAfter (exec .theta (running ((allLanes 0).set 12 0x8000000000000000) 0)) 23 = some 0x8000000000000000 := by
  decide +kernel
/-- V-RHO-3: lanes 2 and 24 of RHO on `G`. -/
theorem test_rho : laneAfter (exec .rho (running stateG 0)) 2 = some 0xF6A99B4B1F77DD0F ∧
    laneAfter (exec .rho (running stateG 0)) 24 = some 0xB8C75B9187835CDA := by decide +kernel
/-- V-PI-1: the whole source table. -/
theorem test_pi : (pi numbered).toList.map BitVec.toNat =
    [0, 6, 12, 18, 24, 3, 9, 10, 16, 22, 1, 7, 13, 19, 20, 4, 5, 11, 17, 23, 2, 8, 14, 15, 21] := by decide +kernel
/-- V-CHI-2: lanes 3 and 4 of CHI on `G` read lanes 0 and 1 as they were. -/
theorem test_chi : laneAfter (exec .chi (running stateG 0)) 3 = some 0xF0FFFFC5FE23E040 ∧
    laneAfter (exec .chi (running stateG 0)) 4 = some 0x375DE2DDFCE0EC43 := by decide +kernel
/-- V-IO-2. -/
theorem test_iota : laneAfter (exec (.iota 23) (running stateG 0)) 0 = some 0x1E3779B9FF4AFC1D := by decide +kernel
/-- V-IO-3: lane 0 is unchanged by a faulting IOTA. -/
theorem test_iota_24 : laneAfter (exec (.iota 24) (running stateG 0)) 0 = some 0x9E3779B97F4A7C15 ∧
    answer (exec (.iota 24) (running stateG 0)) = some (.fault .rcRange) := by decide +kernel
/-- V-RND-2, lane 0, and V-STEP-4, lane 6. -/
theorem test_round : laneAfter (exec (.round 5) (running stateG 0)) 0 = some 0xF6D70E55DBF551A1 ∧
    laneAfter (exec (.round 5) (running stateG 0)) 6 = some 0xC99849DF588C8C67 := by decide +kernel
/-- V-RND-5: Theta has not run. -/
theorem test_round_24 : laneAfter (exec (.round 24) (running stateG 0)) 24 = some 0x736AE31D6E461E0D ∧
    statusAfter (exec (.round 24) (running stateG 0)) = some 0x06 := by decide +kernel

/-- The State of S5, prepared by the absorber for "abc". -/
def stateAbc : Lanes := ((allLanes 0).set 0 0x0000000001636261).set 16 0x8000000000000000

/-- S5: the digest of the lanes PERMUTE leaves on the "abc" State; RND is 0 again at the response (10 R14). -/
theorem test_permute_abc :
    (match exec .permute (running stateAbc 0) with
      | .next t => some (extract t.lanes, t.rnd)
      | .fault _ | .refused _ => none) =
      some (0x4e03657aea45a94fc7d47ba826c8d667c0d1e6e33a64a036ec44f58fa12d6c45, 0) := by
  decide +kernel
/-- S3: the zero State, as one step from the host's command. -/
theorem test_permute_zero : laneAfter (step (offered (allLanes 0) 0x9000 0)) 24 = some 0xEAF1FF7B5CECA249 := by
  decide +kernel

/-! ## EXTRACT256, WRLANE, RDLANE -/

/-- Lanes 0 to 3 of V-EX-2, the others all ones. -/
def stateEx2 : Lanes :=
  ((((allLanes (~~~0)).set 0 0x0123456789ABCDEF).set 1 0xFEDCBA9876543210).set 2 0xFF).set 3 0xFF00000000000000

/-- V-EX-2. -/
theorem test_extract : answer (exec .extract256 (running stateEx2 0)) =
    some (.digest 0xefcdab89674523011032547698badcfeff0000000000000000000000000000ff) := by decide +kernel
/-- V-EX-2, by bytes. -/
theorem test_extract_bytes : (digestBytes (extract stateEx2)).toList.take 9 =
    [0xef, 0xcd, 0xab, 0x89, 0x67, 0x45, 0x23, 0x01, 0x10] := by decide +kernel
/-- V-LN-2: the highest lane. -/
theorem test_wrlane : laneAfter (exec (.wrlane 24) (running (allLanes 0) 0xDEADBEEF00C0FFEE)) 24 =
    some 0xDEADBEEF00C0FFEE ∧ laneAfter (exec (.wrlane 24) (running (allLanes 7) 1)) 23 = some 7 := by decide +kernel
/-- V-LN-4: nothing is written, STATUS is 0x0A. -/
theorem test_wrlane_25 : answer (exec (.wrlane 25) (running (allLanes 0) 1)) = some (.fault .laneRange) ∧
    statusAfter (exec (.wrlane 25) (running (allLanes 0) 1)) = some 0x0A := by decide +kernel
/-- V-DEC-15. -/
theorem test_rdlane : answer (exec (.rdlane 24) (running numbered 0)) = some (.data 24) := by decide +kernel
/-- V-LN-6. -/
theorem test_rdlane_255 : answer (exec (.rdlane 255) (running numbered 0)) = some (.fault .laneRange) := by
  decide +kernel

/-! ## The step -/

/-- V-DEC-4: THETA with a non-zero IMM, whole step. -/
theorem test_step_illegal : answer (step (offered numbered 0x3001 0)) = some (.fault .illegalCmd) ∧
    statusAfter (step (offered numbered 0x3001 0)) = some 0x0E := by decide +kernel
/-- P4, step 29: a halted block accepts no command. -/
theorem test_step_halted :
    (match step (halted [.command 0xC000 0]) with
      | .fault f => some f
      | .next _ | .refused _ => none) = some .halted := by decide +kernel
/-- P4, step 30: reset is the way out, whatever was in progress. -/
theorem test_step_reset : statusAfter (step (halted [.abandoned 0xC000 0])) = some 0x00 := by decide +kernel
/-- The first instruction after reset, as the host places it. -/
theorem test_first_instruction : answer (step (State.reset.withFetchWord 16 0x2017)) =
    some (.data 0x8000000080008008) := by decide +kernel
/-- No command can overtake one in progress (20 R47). -/
theorem test_step_busy :
    (match step { offered numbered 0x3000 0 with busy := true } with
      | .fault f => some f
      | .next _ | .refused _ => none) = some .busy := by decide +kernel

/-! ## Scripts (30 R61, R62) -/

/-- ROTL 4, 0x0123456789ABCDEF with a comment. -/
theorem test_assemble_rotl : assembleLine ['R', 'O', 'T', 'L', ' ', '4', ',', ' ', '0', 'x', '0', '1', '2', '3', '4',
    '5', '6', '7', '8', '9', 'A', 'B', 'C', 'D', 'E', 'F', ' ', ';', 'x'] =
    some [(0x1004, 0x0123456789ABCDEF)] := by decide +kernel
/-- PERMUTE takes no operand; IOTA takes one. -/
theorem test_assemble_formats : assembleLine ['P', 'E', 'R', 'M', 'U', 'T', 'E'] = some [(0x9000, 0)] ∧
    assembleLine ['I', 'O', 'T', 'A', ' ', '2', '3'] = some [(0x7017, 0)] ∧
    assembleLine ['P', 'I', ' ', '1'] = none ∧ assembleLine ['R', 'D', 'L', 'A', 'N', 'E'] = none ∧
    assembleLine ['R', 'O', 'U', 'N', 'D', ' ', '2', '5', '6'] = none := by decide +kernel
/-- The expansions. -/
theorem test_pseudo : zeroState.length = 25 ∧ zeroState.getLast? = some (0xB018, 0) ∧ rounds.length = 24 ∧
    rounds.getLast? = some (0x8017, 0) ∧ (ldState numbered)[7]? = some (0xB007, 7) := by decide +kernel
/-- LDSTATE from text takes exactly 25 data operands. -/
theorem test_assemble_ldstate :
    asmLdState ((List.range 25).map fun k => [Char.ofNat (48 + k % 10)]) =
      some (ldState (Vector.ofFn fun i : Fin 25 => BitVec.ofNat 64 (i.val % 10))) ∧
    asmLdState ((List.range 24).map fun _ => ['1']) = none := by decide +kernel

/-! ## Witnesses: for each statement with hypotheses, states and operands that meet all of them -/

theorem witness_EncodeOfDecode : decode 0xC018 = .instr (.rdlane 24) := by decide
theorem witness_DecodeFollowsTheOpcodeMap : (0xC018 : CmdWord) &&& (Instr.rdlane 24).maskWord = (Instr.rdlane 24).matchWord ∧
    (0xC018 : CmdWord) &&& (Instr.rdlane 0).maskWord = (Instr.rdlane 0).matchWord := by decide

/-- StepRunsTheDecodedCommand, and the ready block with one command of FirstFailingCheckGivesTheCause and
AcceptedCommandGivesOneResponse. -/
theorem witness_StepRunsTheDecodedCommand : (offered numbered 0x3000 5).cmdReady = true ∧
    (offered numbered 0x3000 5).inputs = .command 0x3000 5 :: [] ∧ decode 0x3000 = .instr .theta := by decide +kernel

/-- A ready block offered a word, for each cause of FirstFailingCheckGivesTheCause at the boundary of its range, and
each kind of response of AcceptedCommandGivesOneResponse. -/
theorem witness_FirstFailingCheckGivesTheCause : (offered numbered 0x2018 0).cmdReady = true ∧
    (offered numbered 0x2018 0).inputs = .command 0x2018 0 :: [] ∧
    causeOfWord 0x2018 = .rcRange ∧ causeOfWord 0x2017 = .noFault ∧ causeOfWord 0xB019 = .laneRange ∧
    causeOfWord 0xB018 = .noFault ∧ causeOfWord 0x2118 = .illegalCmd ∧ causeOfWord 0xD000 = .illegalCmd ∧
    causeOfWord 0x0000 = .illegalCmd ∧ causeOfWord 0x3001 = .illegalCmd ∧ causeOfWord 0x3000 = .noFault ∧
    causeOfWord 0x10FF = .noFault ∧ causeOfWord 0xA000 = .noFault := by decide +kernel
theorem witness_AcceptedCommandGivesOneResponse : (offered numbered 0xA000 0).cmdReady = true ∧
    (offered numbered 0xA000 0).inputs = .command 0xA000 0 :: [] := by decide +kernel

/-- One illegal word for each clause of 30 R58. -/
theorem witness_IllegalWordRaisesIllegalCmd : (offered numbered 0xD000 0).cmdReady = true ∧
    (offered numbered 0xD000 0).inputs = .command 0xD000 0 :: [] ∧
    ((0xD000 : CmdWord) >>> 12).toNat ∈ [0x0, 0xD, 0xE, 0xF] ∧ ((0x1104 : CmdWord) >>> 8).toNat % 16 ≠ 0 ∧
    (((0x3001 : CmdWord) >>> 12).toNat ∈ [0x3, 0x4, 0x5, 0x6, 0x9, 0xA] ∧ (0x3001 : CmdWord).toNat % 256 ≠ 0) := by
  decide +kernel

/-- A halted block offered a command, and one that takes a next step by reset. -/
theorem witness_HaltedBlockAcceptsNoCommand : (halted [.command 0xC000 0]).fault = true ∧
    (halted [.command 0xC000 0]).inputs = .command 0xC000 0 :: [] ∧ (halted [.reset]).fault = true ∧
    ∃ t, step (halted [.reset]) = .next t := ⟨rfl, rfl, rfl, _, rfl⟩
theorem witness_ResetClearsTheBlock : (halted [.reset]).inputs = .reset :: [] ∧
    (halted [.abandoned 0x9000 0]).inputs = .abandoned 0x9000 0 :: [] ∧
    ∃ c d, HostEvent.abandoned 0x9000 0 = .abandoned c d := ⟨rfl, rfl, _, _, rfl⟩
theorem witness_IdleBlockHoldsItsState : State.reset.inputs = [] := rfl

/-- The invariant at power-on, with a next step of each kind: idle, reset, and a command that faults. -/
theorem witness_StepKeepsTheInvariant : State.reset.Inv ∧ (∃ t, step State.reset = .next t) ∧
    (offered numbered 0x2018 0).Inv ∧ ∃ t, step (offered numbered 0x2018 0) = .next t := by
  refine ⟨by simp [State.Inv], ⟨_, rfl⟩, by simp [State.Inv, offered], ⟨_, rfl⟩⟩
theorem witness_CommandIsAFunctionOfBlockAndOperands :
    let s₁ := offered numbered 0xC003 9
    let s₂ := { s₁ with responses := [.noData], wdata := 1, resets := 4 }
    s₁.cmdReady = true ∧ s₂.cmdReady = true ∧ s₁.block = s₂.block ∧ s₁.inputs = .command 0xC003 9 :: [] ∧
      s₂.inputs = .command 0xC003 9 :: [] ∧ s₁ ≠ s₂ := by decide +kernel
theorem witness_DataOperandIsIgnoredOutsideFormatID : Instr.theta.format ≠ .id ∧ (Instr.rdlane 25).format ≠ .id := by
  decide
theorem witness_LanesOutsideTheWriteSetAreKept : (∃ t, exec (.wrlane 3) (running numbered 9) = .next t) ∧
    lanesWritten (.wrlane 3) 4 = false ∧ (∃ t, exec .rho (running numbered 9) = .next t) ∧
    lanesWritten .rho 0 = false := ⟨⟨_, rfl⟩, rfl, ⟨_, rfl⟩, rfl⟩

/-- Two states that agree on what RDLANE 3 reads and differ elsewhere. -/
theorem witness_ResultDependsOnTheReadSetOnly :
    let A := running numbered 9
    let B := running (numbered.set 4 77) 9
    (∃ t, exec (.rdlane 3) A = .next t) ∧ (∃ t, exec (.rdlane 3) B = .next t) ∧ A.wdata = B.wdata ∧
      (∀ k : Fin 25, lanesRead (.rdlane 3) k.val = true → A.lanes[k] = B.lanes[k]) ∧ A.lanes ≠ B.lanes :=
  ⟨⟨_, rfl⟩, ⟨_, rfl⟩, rfl, by decide +kernel, by decide +kernel⟩
theorem witness_FrameOfEveryCommand : (∃ t, exec (.iota 23) (running numbered 9) = .next t) ∧
    (Instr.iota 23).WellFormed ∧ (∃ t, exec (.iota 24) (running numbered 9) = .next t) ∧
    ¬ (Instr.iota 24).WellFormed := ⟨⟨_, rfl⟩, rfl, ⟨_, rfl⟩, by decide⟩
theorem witness_ReadsHaveNoSideEffect : (Instr.rdlane 24).WellFormed ∧ (24 : Byte).toNat ≤ 24 := by decide

/-- Between WRLANE 3 and RDLANE 3, a WRLANE of the lane beside it with another operand; the same at the last lane. -/
theorem witness_ReadReturnsTheLatestWrite :
    (3 : Byte).toNat ≤ 24 ∧ (∀ p ∈ [(Instr.wrlane 4, (77 : Word)), (.rotl 1, 5)], lanesWritten p.1 (3 : Byte).toNat = false) ∧
      (24 : Byte).toNat ≤ 24 ∧ ∀ p ∈ [(Instr.wrlane 23, (77 : Word))], lanesWritten p.1 (24 : Byte).toNat = false := by
  decide
/-- V-LN-1 with a write of another value to another lane in between. -/
theorem test_write_between : answer (execEach [(.wrlane 7, 0xDEADBEEF00C0FFEE), (.wrlane 8, 6), (.rdlane 7, 1)]
    (running (allLanes 0) 0)) = some (.data 0xDEADBEEF00C0FFEE) := by decide +kernel
theorem witness_StatusAfterAFault : FaultEntry (running numbered 9) ((running numbered 9).raise .laneRange) .laneRange :=
  raise_faultEntry _ _
theorem witness_RotationMovesEveryBit : (63 : Nat) < 64 ∧ 1 ≤ 63 ∧ 63 ≤ 63 := by decide
theorem witness_RconstAnswersOrFaults : (∃ k : Fin 24, k.val = (23 : Byte).toNat) ∧ 23 < (24 : Byte).toNat :=
  ⟨⟨23, rfl⟩, by decide⟩
theorem witness_ThetaMixesColumnParities : ∃ A C D : Nat → Word, (∀ k, A k = laneAt numbered k) ∧
    (∀ x, C x = A x ^^^ A (x + 5) ^^^ A (x + 10) ^^^ A (x + 15) ^^^ A (x + 20)) ∧
    (∀ x, D x = rotl64 (C ((x + 1) % 5)) 1 ^^^ C ((x + 4) % 5)) :=
  ⟨_, _, _, fun _ => rfl, fun _ => rfl, fun _ => rfl⟩
theorem witness_RhoRotatesByTheOffsetTable :
    [[0, 1, 62, 28, 27], [36, 44, 6, 55, 20], [3, 10, 43, 25, 39], [41, 45, 15, 21, 8], [18, 2, 61, 56, 14]][4]?
        = some [18, 2, 61, 56, 14] ∧ [18, 2, 61, 56, 14][4]? = some 14 := by decide
theorem witness_PiMovesEveryLane : (4 : Nat) < 5 ∧ (0 : Nat) < 5 := by decide
theorem witness_ChiCombinesEachRow : (4 : Nat) < 5 ∧ (3 : Nat) < 5 := by decide
theorem witness_RotationsCompose : 1 ≤ 1 ∧ 1 ≤ 63 ∧ 63 ≤ 63 := by decide
theorem witness_RndCountsTheRounds : (0 : Nat) ≤ 24 ∧ 23 ≤ 24 ∧ 24 ≤ 24 := by decide
theorem witness_ExtractIsInvertible : (3 : Nat) < 4 ∧ extract (allLanes 0) = extract ((allLanes 0).set 4 1) := by
  decide +kernel
theorem witness_PiHasOrderTwentyFour : 0 < 23 ∧ 23 < 24 := by decide
theorem witness_InPlaceChiIsChi : [4, 3, 2, 1, (0 : Fin 5)].Perm (List.finRange 5) := by decide
theorem witness_IotaAddsTheConstantToLaneZero : (∃ k : Fin 24, k.val = (23 : Byte).toNat) ∧
    (1 : Nat) ≤ 24 ∧ 24 < 25 ∧ 23 < (24 : Byte).toNat := ⟨⟨23, rfl⟩, by decide⟩
theorem witness_RoundIsItsFiveCommands : (23 : Byte).toNat ≤ 23 ∧ 23 < (24 : Byte).toNat := by decide
theorem witness_PermuteIsTwentyFourRounds : (running numbered 0).rnd = 0 := rfl
theorem witness_ExtractAnswersTheDigestBytes : (31 : Fin 32).val = 8 * 3 + 7 ∧ 3 < 4 ∧ 7 < 8 := by decide
theorem witness_WrlaneWritesOneLane : (24 : Byte).toNat ≤ 24 ∧ 0 < 25 ∧ 0 ≠ (24 : Byte).toNat ∧
    24 < (25 : Byte).toNat := by decide
theorem witness_RdlaneAnswersTheLane : (24 : Byte).toNat ≤ 24 ∧ 24 < (25 : Byte).toNat := by decide

/-- A ready block that is issued LDSTATE and then one command more. -/
theorem witness_LdstateLoadsTheLaneFile :
    let s := { State.reset with inputs := issue (ldState numbered) ++ [HostEvent.command 0x9000 0] }
    s.cmdReady = true ∧ s.inputs = issue (ldState numbered) ++ [.command 0x9000 0] := ⟨rfl, rfl⟩
theorem witness_RoundsHasTheEffectOfPermute :
    let s := { State.reset with inputs := issue rounds ++ [] }
    s.cmdReady = true ∧ s.rnd = 0 ∧ s.inputs = issue rounds ++ [] := ⟨rfl, rfl, rfl⟩
theorem witness_ConstantsComeFromTheGenerator : (0 : Nat) ≤ 6 ∧ (6 : Nat) ≤ 6 := by decide

/-- 41 R83: rc(t) for the first eight t, by hand from the register 01 02 04 08 10 20 40 80, and the first reduction. -/
theorem test_generator_first_bits : (List.range 8).map lfsrBit = [true, false, false, false, false, false, false, false] ∧
    lfsrRegister 8 = 0x71 := by decide

end Sys2Proof.Tests
end

/-! PROOFS. A command ends alike in two states with the same block and the same data operand (00_scope.md R3). -/

namespace Sys2Proof.Machine

/-- Two states have the same block exactly when they agree on its four fields. -/
theorem block_eq_iff {s t : State} :
    s.block = t.block ↔ s.lanes = t.lanes ∧ s.rnd = t.rnd ∧ s.fault = t.fault ∧ s.cause = t.cause := by
  simp [State.block]

/-- Outcomes `o₁` of `s₁` and `o₂` of `s₂` that reach the same block and answer the same (20 R47).  The host's part of
the two states is not compared: each keeps its own. -/
def EndAlike (s₁ s₂ : State) (o₁ o₂ : Host.Outcome State Fault Refusal) : Prop :=
  ∃ t₁ t₂ r, o₁ = .next t₁ ∧ o₂ = .next t₂ ∧ t₁.block = t₂.block ∧ Answered s₁ t₁ r ∧ Answered s₂ t₂ r

section
variable {s₁ s₂ : State} (hb : s₁.block = s₂.block)
include hb

/-- A read ends alike when its two responses are the same. -/
theorem finish_endAlike {r₁ r₂ : Response} (hr : r₁ = r₂) : EndAlike s₁ s₂ (finish s₁ r₁) (finish s₂ r₂) := by
  subst hr
  exact ⟨_, _, r₁, rfl, rfl, by simpa using hb, respond_answered .., respond_answered ..⟩

/-- A transform ends alike when it computes the same lanes. -/
theorem finish_setLanes_endAlike {A₁ A₂ : Lanes} (hA : A₁ = A₂) :
    EndAlike s₁ s₂ (finish (s₁.setLanes A₁) .noData) (finish (s₂.setLanes A₂) .noData) := by
  refine ⟨_, _, .noData, rfl, rfl, ?_, setLanes_respond_answered .., setLanes_respond_answered ..⟩
  rw [block_eq_iff] at hb
  simp [block_eq_iff, hb, hA]

/-- A write of one lane ends alike when the value is the same. -/
theorem finish_setLane_endAlike {v₁ v₂ : Word} (hv : v₁ = v₂) (k : Fin 25) :
    EndAlike s₁ s₂ (finish (s₁.setLane k v₁) .noData) (finish (s₂.setLane k v₂) .noData) := by
  refine ⟨_, _, .noData, rfl, rfl, ?_, setLane_respond_answered .., setLane_respond_answered ..⟩
  rw [block_eq_iff] at hb
  simp [block_eq_iff, hb, hv]

/-- The fault entry ends alike (60 R128). -/
theorem trap_endAlike (c : Cause) : EndAlike s₁ s₂ (trap s₁ c) (trap s₂ c) := by
  obtain ⟨-, -, -, -, ha₁⟩ := raise_faultEntry s₁ c
  obtain ⟨-, -, -, -, ha₂⟩ := raise_faultEntry s₂ c
  refine ⟨_, _, .fault c, rfl, rfl, ?_, ha₁, ha₂⟩
  rw [block_eq_iff] at hb
  simp [block_eq_iff, hb]

/-- A command on a round index ends alike when it does so at every valid index. -/
theorem withRound_endAlike {run₁ run₂ : Fin 24 → Host.Outcome State Fault Refusal}
    (h : ∀ k, EndAlike s₁ s₂ (run₁ k) (run₂ k)) (imm : Byte) :
    EndAlike s₁ s₂ (withRound imm s₁ run₁) (withRound imm s₂ run₂) := by
  rcases Nat.lt_or_ge 23 imm.toNat with hgt | hle
  · rw [withRound_of_gt hgt, withRound_of_gt hgt]
    exact trap_endAlike hb .rcRange
  · rw [withRound_of_le hle, withRound_of_le hle]
    exact h _

/-- A command on a lane index ends alike when it does so at every valid index. -/
theorem withLane_endAlike {run₁ run₂ : Fin 25 → Host.Outcome State Fault Refusal}
    (h : ∀ k, EndAlike s₁ s₂ (run₁ k) (run₂ k)) (imm : Byte) :
    EndAlike s₁ s₂ (withLane imm s₁ run₁) (withLane imm s₂ run₂) := by
  rcases Nat.lt_or_ge 24 imm.toNat with hgt | hle
  · rw [withLane_of_gt hgt, withLane_of_gt hgt]
    exact trap_endAlike hb .laneRange
  · rw [withLane_of_le hle, withLane_of_le hle]
    exact h _

/-- PERMUTE ends alike: its loop reads nothing but the lanes, and `RND` starts from 0. -/
theorem exec_permute_endAlike : EndAlike s₁ s₂ (exec .permute s₁) (exec .permute s₂) := by
  refine ⟨_, _, .noData, exec_permute s₁, exec_permute s₂, ?_, by simp [Answered], by simp [Answered]⟩
  rw [block_eq_iff] at hb
  simp [block_eq_iff, hb]

/-- Every command ends alike in two states with the same block; the data operand matters in format ID alone (30 R52). -/
theorem exec_endAlike {i : Instr} (hd : i.format = .id → s₁.wdata = s₂.wdata) :
    EndAlike s₁ s₂ (exec i s₁) (exec i s₂) := by
  have hl : s₁.lanes = s₂.lanes := (block_eq_iff.mp hb).1
  cases i with
  | rotl n => exact finish_endAlike hb (by simp only [dataOperand, hd rfl])
  | rconst r => exact withRound_endAlike hb (fun k => finish_endAlike hb rfl) r
  | theta => exact finish_setLanes_endAlike hb (congrArg theta hl)
  | rho => exact finish_setLanes_endAlike hb (congrArg rho hl)
  | pi => exact finish_setLanes_endAlike hb (congrArg pi hl)
  | chi => exact finish_setLanes_endAlike hb (congrArg chi hl)
  | iota r => exact withRound_endAlike hb (fun k => finish_setLanes_endAlike hb (congrArg (iota · k) hl)) r
  | round r => exact withRound_endAlike hb (fun k => finish_setLanes_endAlike hb (congrArg (roundLanes · k) hl)) r
  | permute => exact exec_permute_endAlike hb
  | extract256 => exact finish_endAlike hb (by rw [hl])
  | wrlane k => exact withLane_endAlike hb (finish_setLane_endAlike hb (hd rfl)) k
  | rdlane k => exact withLane_endAlike hb (fun j => finish_endAlike hb (by rw [hl])) k

/-- So does every accepted word, legal or not. -/
theorem runWord_endAlike (hd : s₁.wdata = s₂.wdata) (c : CmdWord) :
    EndAlike s₁ s₂ (runWord c s₁) (runWord c s₂) := by
  unfold runWord
  cases decode c with
  | instr i => exact exec_endAlike hb fun _ => hd
  | illegal e => exact trap_endAlike hb .illegalCmd

end

/-- A command offered to a ready block is executed in this step. -/
theorem step_command {s : State} {c : CmdWord} {d : Word} {rest : List HostEvent} (hr : s.cmdReady = true)
    (h : s.inputs = .command c d :: rest) : step s = runWord c (s.taking d rest) := by
  rw [step, takeEvent_command hr h]

/-- Acceptance leaves the block alone (20 R46). -/
@[simp] theorem taking_block (s : State) (d : Word) (rest : List HostEvent) :
    (s.taking d rest).block = s.block := rfl

/-- Settles O16: once accepted, the word is executed in two states that agree on the block and the operand. -/
theorem commandIsAFunctionOfBlockAndOperands : Obligations.CommandIsAFunctionOfBlockAndOperands := by
  intro s₁ s₂ c d rest₁ rest₂ hr₁ hr₂ hb hi₁ hi₂
  have hb' : (s₁.taking d rest₁).block = (s₂.taking d rest₂).block := by simpa using hb
  obtain ⟨t₁, t₂, r, h₁, h₂, ht, ⟨ha₁, -⟩, ⟨ha₂, -⟩⟩ := runWord_endAlike hb' rfl c
  exact ⟨t₁, t₂, r, (step_command hr₁ hi₁).trans h₁, (step_command hr₂ hi₂).trans h₂, ht, ha₁, ha₂⟩

end Sys2Proof.Machine

/-! PROOFS. The state at command boundaries: what reset gives, what every command leaves unchanged, the invariant that
every step keeps, and the outputs that follow from the state (10_state.md R13 to R17, R22). -/

namespace Sys2Proof.Machine

/-- Settles O12: each value is a field of the reset state or follows from its fields. -/
theorem powerOnState : Obligations.PowerOnState := ⟨rfl, rfl, rfl, rfl, rfl, rfl⟩

/-- Settles O14: in the reset state `FAULT` = 0 and `CAUSE` = 0. -/
theorem powerOnMeetsTheInvariant : Obligations.PowerOnMeetsTheInvariant := ⟨rfl, rfl, iff_of_true rfl rfl⟩

/-- Settles O20: a command has one of the two shapes of `exec_shape`, and PERMUTE is never the faulting one. -/
theorem frameOfEveryCommand : Obligations.FrameOfEveryCommand := by
  intro i s t h
  rcases exec_shape i s with ⟨hvalid, A, r, ht⟩ | ⟨hinvalid, c, hc, ht⟩ <;>
    obtain rfl := Host.Outcome.next.inj (ht.symm.trans h)
  · exact ⟨⟨r, respond_answered ..⟩, rfl, fun _ => ⟨rfl, rfl⟩, fun hn => absurd hvalid hn⟩
  · have hne : i ≠ .permute := fun hi => hinvalid (hi ▸ rfl)
    obtain ⟨-, -, -, hrnd, hanswered⟩ := raise_faultEntry s c
    refine ⟨⟨_, hanswered⟩, by rw [if_neg hne, hrnd], fun hvalid => absurd hvalid hinvalid, fun _ => ?_⟩
    obtain rfl | rfl := hc
    · exact .inl (raise_faultEntry s _)
    · exact .inr (raise_faultEntry s _)

/-- A fault entry meets the invariant: it sets `FAULT` and a cause together, and keeps `RND` (60 R128). -/
theorem FaultEntry.inv {s t : State} {c : Cause} (h : FaultEntry s t c) (hrnd : s.rnd = 0) (hc : c ≠ .noFault) :
    t.Inv := by
  obtain ⟨hfault, hcause, -, hkept, -, hbusy, -⟩ := h
  exact ⟨hkept.trans hrnd, hbusy, by simp [hfault, hcause, hc]⟩

/-- Reset restores the invariant from any state (70 R140). -/
theorem applyReset_inv (s : State) : s.applyReset.Inv := by simp [State.Inv]

/-- A command ends at a boundary that meets the invariant.  `BUSY` may be 1 before it: the command is then in
progress. -/
theorem exec_inv {i : Instr} {s t : State} (hrnd : s.rnd = 0) (hcause : s.fault = false ↔ s.cause = .noFault)
    (h : exec i s = .next t) : t.Inv := by
  obtain ⟨⟨r, -, hbusy, -⟩, hrnd', hvalid, hinvalid⟩ := frameOfEveryCommand i s t h
  by_cases hwf : i.WellFormed
  · obtain ⟨hf, hc⟩ := hvalid hwf
    exact ⟨by rw [hrnd', hrnd, ite_self], hbusy, by rw [hf, hc]; exact hcause⟩
  · rcases hinvalid hwf with hentry | hentry <;> exact hentry.inv hrnd (by decide)

/-- So does every accepted word, legal or not. -/
theorem runWord_inv {c : CmdWord} {s t : State} (hrnd : s.rnd = 0) (hcause : s.fault = false ↔ s.cause = .noFault)
    (h : runWord c s = .next t) : t.Inv := by
  rcases runWord_cases c s with ⟨i, -, hi⟩ | ⟨e, -, he⟩
  · exact exec_inv hrnd hcause (hi.symm.trans h)
  · obtain rfl := Host.Outcome.next.inj (he.symm.trans h)
    exact (raise_faultEntry s .illegalCmd).inv hrnd (by decide)

/-- Settles O15: a step idles, resets the block, or executes an accepted word. -/
theorem stepKeepsTheInvariant : Obligations.StepKeepsTheInvariant := by
  intro s t hinv h
  have ⟨hrnd, _, hcause⟩ := hinv
  rcases step_next_cases h with ⟨-, rfl⟩ | ⟨e, rest, -, -, rfl⟩ | ⟨c, d, rest, -, -, hrun⟩
  · exact hinv
  · exact applyReset_inv _
  · exact runWord_inv (s := s.taking d rest) hrnd hcause hrun

/-- The value of two fields side by side: the upper one weighs 2 to the width of the lower one. -/
theorem toNat_append_eq_add {m n : Nat} (x : BitVec m) (y : BitVec n) :
    (x ++ y).toNat = x.toNat * 2 ^ n + y.toNat := by
  rw [BitVec.toNat_append, ← Nat.shiftLeft_add_eq_or_of_lt y.isLt, Nat.shiftLeft_eq]

/-- The value of `STATUS`, field by field (10 R17). -/
theorem status_toNat (s : State) :
    s.status.toNat = (s.cause.code.toNat * 2 + s.fault.toNat) * 2 + s.busy.toNat := by
  simp only [State.status, toNat_append_eq_add, BitVec.toNat_ofBool]
  simp

/-- Bit 0 of `STATUS` is `BUSY` (10 R17). -/
theorem status_getLsbD_zero (s : State) : s.status.getLsbD 0 = s.busy :=
  BitVec.getLsbD_append.trans (by simp)

/-- Bit 1 of `STATUS` is `FAULT` (10 R17). -/
theorem status_getLsbD_one (s : State) : s.status.getLsbD 1 = s.fault :=
  BitVec.getLsbD_append.trans (BitVec.getLsbD_append.trans (by simp))

/-- Settles O23: the lower two bits by position, the upper two fields from the value of `STATUS`. -/
theorem statusBits : Obligations.StatusBits := by
  intro s
  have hvalue := status_toNat s
  have hcode : s.cause.code.toNat < 4 := s.cause.code.isLt
  have hfault : s.fault.toNat ≤ 1 := s.fault.toNat_le
  have hbusy : s.busy.toNat ≤ 1 := s.busy.toNat_le
  exact ⟨status_getLsbD_zero s, status_getLsbD_one s, by omega, by omega, cmdReady_iff s⟩

/-- The state when round `r` of PERMUTE begins, and after the last round for `r` = 24 (42 R100). -/
def permuteAt (s : State) (r : Nat) : State := ((List.finRange 24).take r).foldl permuteTurn { s with rnd := 0 }

/-- The turn of round `r` follows the turns before it. -/
theorem permuteAt_succ (s : State) {r : Nat} (h : r < 24) :
    permuteAt s (r + 1) = permuteTurn (permuteAt s r) ⟨r, h⟩ := by
  simp [permuteAt, List.take_add_one, List.getElem?_eq_getElem (l := List.finRange 24) (i := r) (by simpa using h)]

/-- `RND` is `r` when round `r` begins (10 R14). -/
theorem permuteAt_rnd (s : State) {r : Nat} (h : r < 24) : (permuteAt s r).rnd = BitVec.ofNat 5 r := by
  induction r with
  | zero => rfl
  | succ r ih =>
    have hne : r ≠ 23 := by omega
    simp [permuteAt_succ s (Nat.lt_of_succ_lt h), permuteTurn, hne, ih (Nat.lt_of_succ_lt h), BitVec.ofNat_add]

/-- Settles O44: `RND` counts up to round 23, and the turn of round 23 returns it to 0. -/
theorem rndCountsTheRounds : Obligations.RndCountsTheRounds := by
  intro s r hr
  show (permuteAt s r).rnd.toNat = _
  rcases Nat.lt_or_eq_of_le hr with hlt | rfl
  · rw [permuteAt_rnd s hlt, if_neg hlt.ne, BitVec.toNat_ofNat, Nat.mod_eq_of_lt (by omega)]
  · simp [permuteAt_succ s (r := 23) (by decide), permuteTurn]

end Sys2Proof.Machine

/-! PROOFS. The table of lanes read and written by each command (10_state.md R12). -/

namespace Sys2Proof.Machine

/-- Two lane files agree on the lanes that a command reads (10 R12, column 2). -/
def AgreeOnReads (i : Instr) (A B : Lanes) : Prop := ∀ k : Fin 25, lanesRead i k.val = true → A[k] = B[k]

/-- From lanes `A` and data operand `d`, the command leaves the lanes `f A d` and answers `g A d`. -/
def Computes (i : Instr) (f : Lanes → Word → Lanes) (g : Lanes → Word → Response) : Prop :=
  ∀ s, ∃ t, exec i s = .next t ∧ t.lanes = f s.lanes s.wdata ∧ t.responses = s.responses ++ [g s.lanes s.wdata]

/-- The state that the command reaches has the lanes and the response computed. -/
theorem Computes.of_next {i : Instr} {f : Lanes → Word → Lanes} {g : Lanes → Word → Response} {s t : State}
    (h : Computes i f g) (ht : exec i s = .next t) :
    t.lanes = f s.lanes s.wdata ∧ t.responses = s.responses ++ [g s.lanes s.wdata] := by
  obtain ⟨u, hu, hresult⟩ := h s
  obtain rfl := Host.Outcome.next.inj (hu.symm.trans ht)
  exact hresult

/-- The lanes that `f` changes and depends on are those of the command's row of 10 R12, and so are those that the
response `g` depends on. -/
structure FollowsRow (i : Instr) (f : Lanes → Word → Lanes) (g : Lanes → Word → Response) : Prop where
  /-- Lanes outside the write column keep their values. -/
  kept : ∀ A d (k : Fin 25), lanesWritten i k.val = false → (f A d)[k] = A[k]
  /-- Lanes of the write column depend on the read column alone. -/
  written : ∀ A B d, AgreeOnReads i A B → ∀ k : Fin 25, lanesWritten i k.val = true → (f A d)[k] = (f B d)[k]
  /-- The response depends on the read column alone. -/
  answered : ∀ A B d, AgreeOnReads i A B → g A d = g B d

/-- A command with an empty write column that leaves every lane follows its row when its response does. -/
theorem followsRow_of_read {i : Instr} {g : Lanes → Word → Response} (hw : ∀ k, lanesWritten i k = false)
    (hg : ∀ A B d, AgreeOnReads i A B → g A d = g B d) : FollowsRow i (fun A _ => A) g where
  kept _ _ _ _ := rfl
  written _ _ _ _ k hk := by simp [hw] at hk
  answered := hg

/-- A command that reads and writes every lane follows its row, whatever it computes. -/
theorem followsRow_of_all (i : Instr) (f : Lanes → Lanes) (hr : ∀ k, lanesRead i k = true)
    (hw : ∀ k, lanesWritten i k = true) : FollowsRow i (fun A _ => f A) fun _ _ => .noData where
  kept _ _ k hk := by simp [hw] at hk
  written A B _ hAB k _ := by
    have hEq : A = B := lanes_ext fun j => hAB j (hr j)
    rw [hEq]
  answered _ _ _ _ := rfl

/-- RHO follows its row: lane 0 has offset 0, and each lane comes from itself (42 R87). -/
theorem followsRow_rho : FollowsRow .rho (fun A _ => rho A) fun _ _ => .noData where
  kept A _ k hk := by
    have hlow : ¬ 1 ≤ k.val := of_decide_eq_false hk
    obtain rfl : k = 0 := by omega
    rw [rho_get]; rfl
  written A B _ hAB k hk := by rw [rho_get, rho_get, hAB k hk]
  answered _ _ _ _ := rfl

/-- PI follows its row: lane 0 stays, and no other lane comes from it (42 R89). -/
theorem followsRow_pi : FollowsRow .pi (fun A _ => pi A) fun _ _ => .noData where
  kept A _ k hk := by
    have hlow : ¬ 1 ≤ k.val := of_decide_eq_false hk
    obtain rfl : k = 0 := by omega
    rw [pi_get]; rfl
  written A B _ hAB k hk := by
    have hsource : ∀ k : Fin 25, lanesWritten .pi k.val = true → lanesRead .pi (piSource k).val = true := by decide
    rw [pi_get, pi_get, hAB _ (hsource k hk)]
  answered _ _ _ _ := rfl

/-- IOTA follows its row: lane 0 alone, by a constant (42 R95). -/
theorem followsRow_iota (r : Byte) (k : Fin 24) :
    FollowsRow (.iota r) (fun A _ => iota A k) fun _ _ => .noData where
  kept A _ j hj := iota_getElem_of_ne A k j (ne_of_beq_false hj)
  written A B _ hAB j hj := by
    obtain rfl : j = 0 := Fin.ext (eq_of_beq hj)
    have h0 : A[0] = B[0] := hAB 0 rfl
    show (iota A k)[0] = (iota B k)[0]
    rw [iota_getElem_zero, iota_getElem_zero, h0]
  answered _ _ _ _ := rfl

/-- WRLANE follows its row: the one lane takes the data operand (44 R110). -/
theorem followsRow_wrlane (n : Byte) (h : n.toNat < 25) :
    FollowsRow (.wrlane n) (fun A d => A.set n.toNat d h) fun _ _ => .noData where
  kept A d k hk := by
    have hne : k.val ≠ n.toNat := ne_of_beq_false hk
    exact Vector.getElem_set_ne h k.isLt hne.symm
  written A B d _ k hk := by
    obtain rfl : k = ⟨n.toNat, h⟩ := Fin.ext (eq_of_beq hk)
    exact (Vector.getElem_set_self h).trans (Vector.getElem_set_self h).symm
  answered _ _ _ _ := rfl

/-- The digest is a function of the lanes that EXTRACT256 reads (43 R105). -/
theorem extract_congr {A B : Lanes} (h : AgreeOnReads .extract256 A B) : extract A = extract B := by
  have h0 : A[0] = B[0] := h 0 rfl
  have h1 : A[1] = B[1] := h 1 rfl
  have h2 : A[2] = B[2] := h 2 rfl
  have h3 : A[3] = B[3] := h 3 rfl
  rw [extract, extract, h0, h1, h2, h3]

/-- A command with a valid operand computes lanes and a response that follow its row of 10 R12. -/
theorem exec_followsRow (i : Instr) (hwf : i.WellFormed) : ∃ f g, Computes i f g ∧ FollowsRow i f g := by
  cases i with
  | rotl n =>
    exact ⟨_, fun _ d => .data (rotl64 d (n.toNat % 64)), fun s => ⟨_, exec_rotl n s, rfl, rfl⟩,
      followsRow_of_read (fun _ => rfl) fun _ _ _ _ => rfl⟩
  | rconst r =>
    have hr : r.toNat ≤ 23 := of_decide_eq_true hwf
    exact ⟨_, fun _ _ => .data (roundConstant _), fun s => ⟨_, exec_rconst_of_le hr s, rfl, rfl⟩,
      followsRow_of_read (fun _ => rfl) fun _ _ _ _ => rfl⟩
  | theta => exact ⟨_, _, fun s => ⟨_, exec_theta s, rfl, rfl⟩, followsRow_of_all _ theta (fun _ => rfl) fun _ => rfl⟩
  | rho => exact ⟨_, _, fun s => ⟨_, exec_rho s, rfl, rfl⟩, followsRow_rho⟩
  | pi => exact ⟨_, _, fun s => ⟨_, exec_pi s, rfl, rfl⟩, followsRow_pi⟩
  | chi => exact ⟨_, _, fun s => ⟨_, exec_chi s, rfl, rfl⟩, followsRow_of_all _ chi (fun _ => rfl) fun _ => rfl⟩
  | iota r =>
    have hr : r.toNat ≤ 23 := of_decide_eq_true hwf
    exact ⟨_, _, fun s => ⟨_, exec_iota_of_le hr s, rfl, rfl⟩, followsRow_iota r _⟩
  | round r =>
    have hr : r.toNat ≤ 23 := of_decide_eq_true hwf
    exact ⟨_, _, fun s => ⟨_, exec_round_of_le hr s, rfl, rfl⟩,
      followsRow_of_all _ (fun A => roundLanes A _) (fun _ => rfl) fun _ => rfl⟩
  | permute =>
    exact ⟨_, _, fun s => ⟨_, exec_permute s, rfl, rfl⟩, followsRow_of_all _ permuteLanes (fun _ => rfl) fun _ => rfl⟩
  | extract256 =>
    exact ⟨_, fun A _ => .digest (extract A), fun s => ⟨_, exec_extract256 s, rfl, rfl⟩,
      followsRow_of_read (fun _ => rfl) fun A B _ hAB => congrArg _ (extract_congr hAB)⟩
  | wrlane n =>
    have hn : n.toNat ≤ 24 := of_decide_eq_true hwf
    exact ⟨_, _, fun s => ⟨_, exec_wrlane_of_le hn s, rfl, rfl⟩, followsRow_wrlane n (by omega)⟩
  | rdlane n =>
    have hn : n.toNat ≤ 24 := of_decide_eq_true hwf
    exact ⟨_, fun A _ => .data A[n.toNat], fun s => ⟨_, exec_rdlane_of_le hn s, rfl, rfl⟩,
      followsRow_of_read (fun _ => rfl) fun _ _ _ hAB => congrArg _ (hAB ⟨n.toNat, by omega⟩ (beq_self_eq_true _))⟩

/-- A command with an invalid operand is a fault entry whose cause does not depend on the state (60 R123, R124). -/
theorem exec_of_not_wellFormed {i : Instr} (h : ¬ i.WellFormed) : ∃ c, ∀ s, exec i s = .next (s.raise c) := by
  cases i with
  | rconst r => exact ⟨_, exec_rconst_of_gt (by simpa [Instr.wellFormed] using h)⟩
  | iota r => exact ⟨_, exec_iota_of_gt (by simpa [Instr.wellFormed] using h)⟩
  | round r => exact ⟨_, exec_round_of_gt (by simpa [Instr.wellFormed] using h)⟩
  | wrlane n => exact ⟨_, exec_wrlane_of_gt (by simpa [Instr.wellFormed] using h)⟩
  | rdlane n => exact ⟨_, exec_rdlane_of_gt (by simpa [Instr.wellFormed] using h)⟩
  | rotl | theta | rho | pi | chi | permute | extract256 => exact absurd rfl h

/-- Settles O18: a valid command follows its row, an invalid one is the fault entry, which writes no lane. -/
theorem lanesOutsideTheWriteSetAreKept : Obligations.LanesOutsideTheWriteSetAreKept := by
  intro i s t h k hk
  by_cases hwf : i.WellFormed
  · obtain ⟨f, g, hcomputes, hrow⟩ := exec_followsRow i hwf
    obtain ⟨hlanes, -⟩ := hcomputes.of_next h
    rw [hlanes]
    exact hrow.kept _ _ k hk
  · obtain ⟨c, hraise⟩ := exec_of_not_wellFormed hwf
    obtain rfl := Host.Outcome.next.inj ((hraise s).symm.trans h)
    rfl

/-- Settles O19: a valid command follows its row in both states, an invalid one answers the same fault in both. -/
theorem resultDependsOnTheReadSetOnly : Obligations.ResultDependsOnTheReadSetOnly := by
  intro i s₁ s₂ t₁ t₂ h₁ h₂ hwdata hreads
  by_cases hwf : i.WellFormed
  · obtain ⟨f, g, hcomputes, hrow⟩ := exec_followsRow i hwf
    obtain ⟨hlanes₁, hanswer₁⟩ := hcomputes.of_next h₁
    obtain ⟨hlanes₂, hanswer₂⟩ := hcomputes.of_next h₂
    rw [← hwdata] at hlanes₂ hanswer₂
    refine ⟨fun k _ hk => ?_, _, hanswer₁, ?_⟩
    · rw [hlanes₁, hlanes₂]
      exact hrow.written _ _ _ hreads k hk
    · rw [hanswer₂, hrow.answered _ _ _ hreads]
  · obtain ⟨c, hraise⟩ := exec_of_not_wellFormed hwf
    obtain rfl := Host.Outcome.next.inj ((hraise s₁).symm.trans h₁)
    obtain rfl := Host.Outcome.next.inj ((hraise s₂).symm.trans h₂)
    exact ⟨fun _ hvalid => absurd hvalid hwf, _, State.raise_responses s₁ c, State.raise_responses s₂ c⟩

end Sys2Proof.Machine

/-! PROOFS. The transaction rule: an accepted word is executed as the command it decodes to, and gives one response of
the kind of its row (20_memory.md R46, R47; 30_encoding.md R57, R58). -/

namespace Sys2Proof.Machine

/-! ### The fields of a word by their values, and what decoding says of them -/

theorem opField_toNat (c : CmdWord) : (opField c).toNat = (c >>> 12).toNat := by
  have hlt := c.isLt
  simp only [opField, BitVec.extractLsb'_toNat, BitVec.toNat_ushiftRight, Nat.shiftRight_eq_div_pow]
  omega

theorem rsvField_toNat (c : CmdWord) : (rsvField c).toNat = (c >>> 8).toNat % 16 := by
  simp [rsvField, BitVec.extractLsb'_toNat]

theorem immField_toNat (c : CmdWord) : (immField c).toNat = c.toNat % 256 := by
  simp [immField, BitVec.extractLsb'_toNat]

/-- A word with `RSV` = 0 decodes by its `OP` and `IMM`. -/
theorem decode_of_rsv_zero {c : CmdWord} (h : rsvField c = 0) : decode c = decodeOp (opField c) (immField c) :=
  if_pos h

/-- A word with another `RSV` is illegal (30 R58 clause 2). -/
theorem decode_of_rsv_ne_zero {c : CmdWord} (h : rsvField c ≠ 0) :
    decode c = .illegal (.reservedBits (rsvField c)) := if_neg h

/-- A command of format `N` is decoded with `IMM` = 0 alone. -/
theorem decodeNoOperand_eq_instr {i j : Instr} {imm : Byte} (h : decodeNoOperand i imm = .instr j) :
    imm = 0 ∧ i = j := by
  unfold decodeNoOperand at h
  split at h
  · exact ⟨‹_›, Decoded.instr.inj h⟩
  · cases h

/-- A command of format `N` is rejected with another `IMM` (30 R58 clause 3). -/
theorem decodeNoOperand_eq_illegal {i : Instr} {imm : Byte} {e : DecodeError}
    (h : decodeNoOperand i imm = .illegal e) : imm ≠ 0 := by
  rintro rfl
  cases h

/-- The opcode map gives a command whose `OP` and `IMM` are those of the word (30 R57). -/
theorem decodeOp_eq_instr {op : BitVec 4} {imm : Byte} {i : Instr} (h : decodeOp op imm = .instr i) :
    op = i.op ∧ imm = i.imm := by
  unfold decodeOp at h
  split at h <;> rename_i hop
  case h_13 => cases h
  case h_3 | h_4 | h_5 | h_6 | h_9 | h_10 =>
    obtain ⟨himm, rfl⟩ := decodeNoOperand_eq_instr h
    exact ⟨BitVec.eq_of_toNat_eq hop, himm⟩
  all_goals
    obtain rfl := Decoded.instr.inj h
    exact ⟨BitVec.eq_of_toNat_eq hop, rfl⟩

/-- The opcode map rejects a reserved `OP`, and an `IMM` in format `N` (30 R58 clauses 1 and 3). -/
theorem decodeOp_eq_illegal {op : BitVec 4} {imm : Byte} {e : DecodeError} (h : decodeOp op imm = .illegal e) :
    op.toNat = 0 ∨ 13 ≤ op.toNat ∨ (op.toNat ∈ [3, 4, 5, 6, 9, 10] ∧ imm ≠ 0) := by
  unfold decodeOp at h
  split at h
  case h_13 =>
    have hreserved : op.toNat = 0 ∨ 13 ≤ op.toNat := by grind
    exact hreserved.imp_right .inl
  case h_3 hop | h_4 hop | h_5 hop | h_6 hop | h_9 hop | h_10 hop =>
    exact .inr (.inr ⟨by simp [hop], decodeNoOperand_eq_illegal h⟩)
  all_goals cases h

/-- The fields of a word that decodes to a command (30 R57). -/
theorem fields_of_decode_instr {c : CmdWord} {i : Instr} (h : decode c = .instr i) :
    (c >>> 12).toNat = i.op.toNat ∧ (c >>> 8).toNat % 16 = 0 ∧ c.toNat % 256 = i.imm.toNat := by
  by_cases hrsv : rsvField c = 0
  · obtain ⟨hop, himm⟩ := decodeOp_eq_instr ((decode_of_rsv_zero hrsv).symm.trans h)
    rw [← opField_toNat, ← rsvField_toNat, ← immField_toNat, hop, hrsv, himm]
    exact ⟨rfl, rfl, rfl⟩
  · cases (decode_of_rsv_ne_zero hrsv).symm.trans h

/-- The fields of a word that the decoder rejects (30 R58). -/
theorem fields_of_decode_illegal {c : CmdWord} {e : DecodeError} (h : decode c = .illegal e) :
    (c >>> 12).toNat = 0 ∨ 13 ≤ (c >>> 12).toNat ∨ (c >>> 8).toNat % 16 ≠ 0 ∨
      ((c >>> 12).toNat ∈ [3, 4, 5, 6, 9, 10] ∧ c.toNat % 256 ≠ 0) := by
  rw [← opField_toNat, ← rsvField_toNat, ← immField_toNat]
  have hzero {n : Nat} {x : BitVec n} (hx : x ≠ 0) : x.toNat ≠ 0 := fun h0 => hx (BitVec.eq_of_toNat_eq h0)
  by_cases hrsv : rsvField c = 0
  · rcases decodeOp_eq_illegal ((decode_of_rsv_zero hrsv).symm.trans h) with hop | hop | ⟨hop, himm⟩
    · exact .inl hop
    · exact .inr (.inl hop)
    · exact .inr (.inr (.inr ⟨hop, hzero himm⟩))
  · exact .inr (.inr (.inl (hzero hrsv)))

/-! ### The cause a word raises -/

/-- The cause raised by the operand of a command, `noFault` for a valid one (60 R123, R124). -/
def operandCause : Instr → Cause
  | .rconst r | .iota r | .round r => if 23 < r.toNat then .rcRange else .noFault
  | .wrlane k | .rdlane k => if 24 < k.toNat then .laneRange else .noFault
  | .rotl _ | .theta | .rho | .pi | .chi | .permute | .extract256 => .noFault

/-- An illegal word raises `ILLEGAL_CMD` (60 R125). -/
theorem causeOfWord_of_illegal {c : CmdWord} {e : DecodeError} (h : decode c = .illegal e) :
    causeOfWord c = .illegalCmd := if_pos (fields_of_decode_illegal h)

/-- A legal word raises the cause of its command's operand (60 R127). -/
theorem causeOfWord_of_instr {c : CmdWord} {i : Instr} (h : decode c = .instr i) :
    causeOfWord c = operandCause i := by
  obtain ⟨hop, hrsv, himm⟩ := fields_of_decode_instr h
  simp only [causeOfWord, hop, hrsv, himm]
  cases i <;> simp [Instr.op, Instr.imm, operandCause]

theorem operandCause_of_wellFormed {i : Instr} (h : i.WellFormed) : operandCause i = .noFault := by
  cases i with
  | rconst r | iota r | round r => exact if_neg (Nat.not_lt.mpr (of_decide_eq_true h))
  | wrlane k | rdlane k => exact if_neg (Nat.not_lt.mpr (of_decide_eq_true h))
  | rotl | theta | rho | pi | chi | permute | extract256 => rfl

/-- An invalid operand raises a cause, and the command is its fault entry (60 R123, R124, R128). -/
theorem exec_of_invalid_operand {i : Instr} (h : ¬ i.WellFormed) :
    operandCause i ≠ .noFault ∧ ∀ s, exec i s = .next (s.raise (operandCause i)) := by
  have round {r : Byte} (hr : ¬ decide (r.toNat ≤ 23) = true) : 23 < r.toNat := by simpa using hr
  have lane {k : Byte} (hk : ¬ decide (k.toNat ≤ 24) = true) : 24 < k.toNat := by simpa using hk
  cases i with
  | rconst r => simpa [operandCause, round h] using exec_rconst_of_gt (round h)
  | iota r => simpa [operandCause, round h] using exec_iota_of_gt (round h)
  | round r => simpa [operandCause, round h] using exec_round_of_gt (round h)
  | wrlane k => simpa [operandCause, lane h] using exec_wrlane_of_gt (lane h)
  | rdlane k => simpa [operandCause, lane h] using exec_rdlane_of_gt (lane h)
  | rotl | theta | rho | pi | chi | permute | extract256 => exact absurd rfl h

/-! ### The step, and the response of its kind -/

/-- Settles O6: the word is accepted in this step, and an accepted word is executed as the command it decodes to. -/
theorem stepRunsTheDecodedCommand : Obligations.StepRunsTheDecodedCommand := by
  intro s c d rest i hready hinputs hdecode
  rw [step_command hready hinputs, runWord, hdecode]

/-- The kind of response that the row with this `OP` gives: a `u64` for ROTL, RCONST and RDLANE, 256 bits for
EXTRACT256, none for the others (20 R47, 30 R57). -/
def RowAnswers (op : Nat) (r : Response) : Prop :=
  (op ∈ [0x1, 0x2, 0xC] → ∃ v, r = .data v) ∧ (op = 0xA → ∃ v, r = .digest v) ∧
    (op ∉ [0x1, 0x2, 0xA, 0xC] → r = .noData)

/-- The rows that answer a `u64` are among those that answer a value. -/
theorem dataRows_subset : [0x1, 0x2, 0xC] ⊆ [0x1, 0x2, 0xA, 0xC] := by decide

theorem rowAnswers_data {op : Nat} (h : op ∈ [0x1, 0x2, 0xC]) (v : Word) : RowAnswers op (.data v) :=
  ⟨fun _ => ⟨v, rfl⟩, fun hop => absurd (hop ▸ h) (by decide), fun hn => absurd (dataRows_subset h) hn⟩

theorem rowAnswers_digest (v : BitVec 256) : RowAnswers 0xA (.digest v) :=
  ⟨fun h => absurd h (by decide), fun _ => ⟨v, rfl⟩, fun h => absurd (by decide) h⟩

theorem rowAnswers_noData {op : Nat} (h : op ∉ [0x1, 0x2, 0xA, 0xC]) : RowAnswers op .noData :=
  ⟨fun hdata => absurd (dataRows_subset hdata) h, fun hop => absurd (by simp [hop]) h, fun _ => rfl⟩

/-- A command with a valid operand gives one response, of the kind of its row (20 R47). -/
theorem exec_answers {i : Instr} (h : i.WellFormed) (s : State) :
    ∃ t r, exec i s = .next t ∧ Answered s t r ∧ RowAnswers i.op.toNat r := by
  cases i with
  | rotl n => exact ⟨_, _, exec_rotl n s, respond_answered .., rowAnswers_data (op := 0x1) (by decide) _⟩
  | rconst r =>
    exact ⟨_, _, exec_rconst_of_le (of_decide_eq_true h) s, respond_answered ..,
      rowAnswers_data (op := 0x2) (by decide) _⟩
  | theta => exact ⟨_, _, exec_theta s, setLanes_respond_answered .., rowAnswers_noData (op := 0x3) (by decide)⟩
  | rho => exact ⟨_, _, exec_rho s, setLanes_respond_answered .., rowAnswers_noData (op := 0x4) (by decide)⟩
  | pi => exact ⟨_, _, exec_pi s, setLanes_respond_answered .., rowAnswers_noData (op := 0x5) (by decide)⟩
  | chi => exact ⟨_, _, exec_chi s, setLanes_respond_answered .., rowAnswers_noData (op := 0x6) (by decide)⟩
  | iota r =>
    exact ⟨_, _, exec_iota_of_le (of_decide_eq_true h) s, setLanes_respond_answered ..,
      rowAnswers_noData (op := 0x7) (by decide)⟩
  | round r =>
    exact ⟨_, _, exec_round_of_le (of_decide_eq_true h) s, setLanes_respond_answered ..,
      rowAnswers_noData (op := 0x8) (by decide)⟩
  | permute => exact ⟨_, _, exec_permute s, by simp [Answered], rowAnswers_noData (op := 0x9) (by decide)⟩
  | extract256 => exact ⟨_, _, exec_extract256 s, respond_answered .., rowAnswers_digest _⟩
  | wrlane k =>
    exact ⟨_, _, exec_wrlane_of_le (of_decide_eq_true h) s, setLane_respond_answered ..,
      rowAnswers_noData (op := 0xB) (by decide)⟩
  | rdlane k =>
    exact ⟨_, _, exec_rdlane_of_le (of_decide_eq_true h) s, respond_answered ..,
      rowAnswers_data (op := 0xC) (by decide) _⟩

/-- The fault entry answers the fault (60 R128). -/
theorem raise_answered (s : State) (c : Cause) : Answered s (s.raise c) (.fault c) := by
  obtain ⟨-, -, -, -, hanswered⟩ := raise_faultEntry s c
  exact hanswered

/-- Settles O9: the word is illegal, or its command has an invalid operand, or its command answers by its row. -/
theorem acceptedCommandGivesOneResponse : Obligations.AcceptedCommandGivesOneResponse := by
  intro s c d rest hready hinputs
  rw [step_command hready hinputs]
  rcases runWord_cases c (s.taking d rest) with ⟨i, hdecode, hrun⟩ | ⟨e, hdecode, hrun⟩ <;> rw [hrun]
  · have hcause := causeOfWord_of_instr hdecode
    by_cases hwf : i.WellFormed
    · obtain ⟨t, r, hexec, hanswered, hrow⟩ := exec_answers hwf (s.taking d rest)
      obtain ⟨hop, -, -⟩ := fields_of_decode_instr hdecode
      rw [hcause, operandCause_of_wellFormed hwf, hop]
      exact ⟨t, r, hexec, hanswered, fun hne => absurd rfl hne, fun _ => hrow⟩
    · obtain ⟨hne, hraise⟩ := exec_of_invalid_operand hwf
      rw [hcause]
      exact ⟨_, _, hraise _, raise_answered .., fun _ => rfl, fun heq => absurd heq hne⟩
  · rw [causeOfWord_of_illegal hdecode]
    exact ⟨_, _, rfl, raise_answered .., fun _ => rfl, nofun⟩

end Sys2Proof.Machine

/-! PROOFS. Reads, writes and the digest: what repeating a command does, what lane a read answers, and which bytes of
the State the digest is (20_memory.md R34, R35, R38, R41). -/

namespace Sys2Proof.Machine

/-! ### Reads and WRLANE repeat, the transforms do not -/

/-- Issued twice, the command leaves the block as it is and answers the same both times (20 R38). -/
def RepeatsAsRead (i : Instr) (s : State) : Prop :=
  ∃ t u r, exec i s = .next t ∧ exec i t = .next u ∧ t.block = s.block ∧ u.block = s.block ∧
    Answered s t r ∧ Answered t u r

/-- A command that only responds, by a function of the lanes and the operand, repeats as a read. -/
theorem repeatsAsRead_of_respond {i : Instr} (g : Lanes → Word → Response)
    (h : ∀ s, exec i s = .next (s.respond (g s.lanes s.wdata))) (s : State) : RepeatsAsRead i s :=
  ⟨_, _, g s.lanes s.wdata, h s, h _, respond_block .., by simp only [respond_block], respond_answered ..,
    respond_answered ..⟩

/-- A second WRLANE with the same operands changes nothing in the block (20 R38). -/
theorem exec_wrlane_twice {k : Byte} (hk : k.toNat ≤ 24) (s : State) :
    ∃ t u, exec (.wrlane k) s = .next t ∧ exec (.wrlane k) t = .next u ∧ u.block = t.block := by
  refine ⟨_, _, exec_wrlane_of_le hk s, exec_wrlane_of_le hk _, ?_⟩
  simp [block_eq_iff, Vector.set_set]

/-- A lane on which applying `f` twice differs from applying it once shows that `f` is not idempotent. -/
theorem notIdempotent_of_lane {f : Lanes → Lanes} (A : Lanes) (i : Fin 25) (h : pick (f (f A)) i ≠ pick (f A) i) :
    NotIdempotent f :=
  ⟨A, fun heq => h (by rw [heq])⟩

/-- All lanes 0. -/
def zeroLanes : Lanes := buildLanes fun _ => 0

/-- One bit set, in lane 1. -/
def bitInLaneOne : Lanes := buildLanes fun i => if i = 1 then 1 else 0

theorem notIdempotent_theta : NotIdempotent theta := notIdempotent_of_lane bitInLaneOne 0 (by decide +kernel)
theorem notIdempotent_rho : NotIdempotent rho := notIdempotent_of_lane bitInLaneOne 1 (by decide +kernel)
theorem notIdempotent_pi : NotIdempotent pi := notIdempotent_of_lane bitInLaneOne 10 (by decide +kernel)
theorem notIdempotent_chi : NotIdempotent chi := notIdempotent_of_lane bitInLaneOne 4 (by decide +kernel)

/-- Iota adds a constant that is not 0, so a second application takes it away again. -/
theorem notIdempotent_iota (r : Fin 24) : NotIdempotent fun A => iota A r := by
  have hne : ∀ r, roundConstant r ≠ 0 := by decide +kernel
  refine ⟨zeroLanes, fun htwice => hne r ?_⟩
  have hlane : (iota (iota zeroLanes r) r)[0] = (iota zeroLanes r)[0] := congrArg (fun A : Lanes => A[0]) htwice
  simpa [zeroLanes] using hlane.symm

/-- From the zero State lane 0 tells one round from two, for each of the 24 constants. -/
theorem notIdempotent_roundLanes (r : Fin 24) : NotIdempotent fun A => roundLanes A r :=
  notIdempotent_of_lane zeroLanes 0 (by revert r; decide +kernel)

/-- From the zero State lane 0 tells one permutation from two. -/
theorem notIdempotent_permuteLanes : NotIdempotent permuteLanes :=
  notIdempotent_of_lane zeroLanes 0 (by decide +kernel)

/-- Settles O21: the four reads only respond, WRLANE writes the same value again, and each transform has its State. -/
theorem readsHaveNoSideEffect : Obligations.ReadsHaveNoSideEffect := by
  refine ⟨?reads, fun k s hk => exec_wrlane_twice hk s, notIdempotent_theta, notIdempotent_rho, notIdempotent_pi,
    notIdempotent_chi, notIdempotent_iota, notIdempotent_roundLanes, notIdempotent_permuteLanes⟩
  case reads =>
    rintro i s hwf (rfl | ⟨v, rfl | rfl | rfl⟩)
    · exact repeatsAsRead_of_respond (fun A _ => .digest (extract A)) exec_extract256 s
    · exact repeatsAsRead_of_respond (fun _ d => .data (rotl64 d _)) (exec_rotl v) s
    · exact repeatsAsRead_of_respond (fun _ _ => .data (roundConstant _)) (exec_rconst_of_le (of_decide_eq_true hwf)) s
    · have hv : v.toNat ≤ 24 := of_decide_eq_true hwf
      exact repeatsAsRead_of_respond (fun A _ => .data A[v.toNat]) (exec_rdlane_of_le hv) s

/-! ### A read answers the latest write -/

/-- Commands that do not write a lane all answer, and leave the lane as it was (10 R12, 20 R47). -/
theorem execEach_keeps_lane (k : Fin 25) (l : List (Instr × Word)) (h : ∀ p ∈ l, lanesWritten p.1 k.val = false)
    (s : State) : ∃ t, execEach l s = .next t ∧ t.lanes[k] = s.lanes[k] := by
  induction l generalizing s with
  | nil => exact ⟨s, execEach_nil s, rfl⟩
  | cons p l ih =>
    obtain ⟨i, d⟩ := p
    rw [List.forall_mem_cons] at h
    obtain ⟨hi, hl⟩ := h
    obtain ⟨u, hu⟩ := exec_next i (s.withOperand d)
    have hkept : u.lanes[k] = s.lanes[k] := lanesOutsideTheWriteSetAreKept i _ u hu k hi
    obtain ⟨t, ht, hlane⟩ := ih hl u
    exact ⟨t, (execEach_cons hu l).trans ht, hlane.trans hkept⟩

/-- Settles O22: WRLANE puts the value in the lane, the commands between keep it, and RDLANE answers it. -/
theorem readReturnsTheLatestWrite : Obligations.ReadReturnsTheLatestWrite := by
  intro k s v d between hk hbetween
  obtain ⟨u, hu, hkept⟩ := execEach_keeps_lane ⟨k.toNat, by omega⟩ between hbetween _
  refine ⟨_, u, _, exec_wrlane_of_le hk _, hu, exec_rdlane_of_le hk _, ?_⟩
  have hlane : u.lanes[k.toNat] = v := hkept.trans (setLane_getElem_self _ _ _)
  simp [hlane]

/-! ### The digest and the byte view of the State -/

/-- BSWAP64 puts byte `k` of the lane in the place that is `k` bytes from the top (43 R105). -/
theorem bswap64_byte (v : Word) {k : Nat} (hk : k < 8) : (bswap64 v).extractLsb' (56 - 8 * k) 8 = laneByte v k := by
  unfold bswap64
  show BitVec.extractLsb' (n := 8 + 8 + 8 + 8 + 8 + 8 + 8 + 8) _ 8 _ = _
  interval_cases k <;>
    simp (disch := omega) only [BitVec.extractLsb'_append_eq_of_le, BitVec.extractLsb'_append_eq_of_add_le] <;>
    exact BitVec.extractLsb'_eq_self

/-- Lane `i` after BSWAP64 stands `i` lanes from the top of the bus (43 R105, R107). -/
theorem extract_lane (A : Lanes) {i : Nat} (hi : i < 4) :
    (extract A).extractLsb' (192 - 64 * i) 64 = bswap64 A[i] := by
  unfold extract
  show BitVec.extractLsb' (n := 64 + 64 + 64 + 64) _ 64 _ = _
  interval_cases i <;>
    simp (disch := omega) only [BitVec.extractLsb'_append_eq_of_le, BitVec.extractLsb'_append_eq_of_add_le] <;>
    exact BitVec.extractLsb'_eq_self

/-- A field inside a field is a field of the whole. -/
theorem extractLsb'_extractLsb' {w : Nat} (x : BitVec w) {a b m n : Nat} (h : b + n ≤ m) :
    (x.extractLsb' a m).extractLsb' b n = x.extractLsb' (a + b) n := by
  ext p hp
  have hlt : b + p < m := by omega
  simp [hlt, Nat.add_assoc]

/-- Digest byte `8i + k` is byte `k` of lane `i` (43 R105 to R107). -/
theorem digestByte_extract (A : Lanes) {i k : Nat} (hi : i < 4) (hk : k < 8) :
    digestByte (extract A) ⟨8 * i + k, by omega⟩ = laneByte A[i] k := by
  have hplace : 248 - 8 * (8 * i + k) = (192 - 64 * i) + (56 - 8 * k) := by omega
  rw [digestByte, hplace, ← extractLsb'_extractLsb' _ (m := 64) (by omega), extract_lane A hi, bswap64_byte _ hk]

/-- Settles O50: byte `j` of the digest is byte `j mod 8` of lane `j / 8`, which is how the byte view numbers it. -/
theorem digestIsTheFirstStateBytes : Obligations.DigestIsTheFirstStateBytes := by
  intro A j
  have hk : j.val % 8 < 8 := Nat.mod_lt _ (by decide)
  have hi : j.val / 8 < 4 := by omega
  calc digestByte (extract A) j
      = digestByte (extract A) ⟨8 * (j.val / 8) + j.val % 8, by omega⟩ := by simp only [Nat.div_add_mod]
    _ = laneByte A[j.val / 8] (j.val % 8) := digestByte_extract A hi hk

end Sys2Proof.Machine

/-! PROOFS. The encoding: a word is its three fields, a command's word has the fields of its row, and the decoder reads
them back (30_encoding.md R50 to R58, R61). -/

namespace Sys2Proof.Machine

/-! ### A word and its fields -/

/-- A word is its fields `OP`, `RSV` and `IMM` side by side (30 R51). -/
theorem fields_append (c : CmdWord) : opField c ++ rsvField c ++ immField c = c := by
  have hupper : opField c ++ rsvField c = c.extractLsb' 8 8 :=
    BitVec.extractLsb'_append_extractLsb'_eq_extractLsb' rfl
  have hword : c.extractLsb' 8 8 ++ immField c = c.extractLsb' 0 16 :=
    BitVec.extractLsb'_append_extractLsb'_eq_extractLsb' rfl
  rw [hupper, hword, BitVec.extractLsb'_eq_self]

/-- The word of every command fits its row of the opcode map (30 R57). -/
theorem encodedWord (i : Instr) : Laws.EncodedWord.Statement i := by
  cases i with
  | rotl n => exact Laws.EncodedWord.rotl n
  | rconst r => exact Laws.EncodedWord.rconst r
  | theta => exact Laws.EncodedWord.theta
  | rho => exact Laws.EncodedWord.rho
  | pi => exact Laws.EncodedWord.pi
  | chi => exact Laws.EncodedWord.chi
  | iota r => exact Laws.EncodedWord.iota r
  | round r => exact Laws.EncodedWord.round r
  | permute => exact Laws.EncodedWord.permute
  | extract256 => exact Laws.EncodedWord.extract256
  | wrlane k => exact Laws.EncodedWord.wrlane k
  | rdlane k => exact Laws.EncodedWord.rdlane k

/-- A word is the encoding of a command exactly when its fields are `OP`, 0 and `IMM` of the command (30 R50). -/
theorem encode_eq_iff {i : Instr} {c : CmdWord} :
    encode i = c ↔ opField c = i.op ∧ rsvField c = 0 ∧ immField c = i.imm := by
  constructor
  · rintro rfl
    obtain ⟨-, hfields⟩ := encodedWord i
    exact hfields
  · rintro ⟨hop, hrsv, himm⟩
    rw [← fields_append c, hop, hrsv, himm]
    rfl

/-- The opcode map gives each command for its own `OP` and `IMM` (30 R57). -/
theorem decodeOp_op_imm (i : Instr) : decodeOp i.op i.imm = .instr i := by
  cases i <;> rfl

/-- The decoder gives a command for its encoding and for no other word (30 R57, R58). -/
theorem decode_eq_instr_iff {c : CmdWord} {i : Instr} : decode c = .instr i ↔ encode i = c := by
  rw [encode_eq_iff]
  by_cases hrsv : rsvField c = 0
  · rw [decode_of_rsv_zero hrsv]
    constructor
    · intro h
      obtain ⟨hop, himm⟩ := decodeOp_eq_instr h
      exact ⟨hop, hrsv, himm⟩
    · rintro ⟨hop, -, himm⟩
      rw [hop, himm, decodeOp_op_imm]
  · rw [decode_of_rsv_ne_zero hrsv]
    exact ⟨nofun, fun ⟨_, hzero, _⟩ => absurd hzero hrsv⟩

/-- Settles O1: the decoder gives a command for its encoding. -/
theorem decodeOfEncode : Obligations.DecodeOfEncode := fun _ => decode_eq_instr_iff.mpr rfl

/-- Settles O2: the decoder gives a command for no other word. -/
theorem encodeOfDecode : Obligations.EncodeOfDecode := fun _ _ => decode_eq_instr_iff.mp

/-- Settles O5: the legal words are encodings; each of the three others is rejected by the first clause it meets. -/
theorem wordsOfTheOpcodeMapDecode : Obligations.WordsOfTheOpcodeMapDecode :=
  ⟨decodeOfEncode (.rotl 4), decodeOfEncode (.rconst 2), decodeOfEncode .theta, decodeOfEncode .rho,
    decodeOfEncode .pi, decodeOfEncode .chi, decodeOfEncode (.iota 23), decodeOfEncode (.round 0),
    decodeOfEncode .permute, decodeOfEncode .extract256, decodeOfEncode (.wrlane 16), decodeOfEncode (.rdlane 3),
    rfl, rfl, rfl⟩

/-! ### The rows of the opcode map -/

/-- `match` of a row is its `OP` with zeros below (30 R57). -/
theorem matchWord_fields (i : Instr) :
    opField i.matchWord = i.op ∧ rsvField i.matchWord = 0 ∧ immField i.matchWord = 0 := by
  cases i <;> simp only [Instr.matchWord, Instr.op] <;> decide

/-- Rows with the same `OP` have the same `match`. -/
theorem matchWord_eq_of_op_eq {i j : Instr} (h : i.op = j.op) : i.matchWord = j.matchWord := by
  obtain ⟨hopi, hrsvi, himmi⟩ := matchWord_fields i
  obtain ⟨hopj, hrsvj, himmj⟩ := matchWord_fields j
  rw [← fields_append i.matchWord, ← fields_append j.matchWord, hopi, hopj, hrsvi, hrsvj, himmi, himmj, h]

/-- `mask` of a row covers `OP` and `RSV` whole (30 R57). -/
theorem maskWord_fields (i : Instr) :
    opField i.maskWord = BitVec.allOnes 4 ∧ rsvField i.maskWord = BitVec.allOnes 4 := by
  unfold Instr.maskWord
  cases i.format <;> decide

/-- A word that fits a row has the row's `OP` and `RSV` = 0. -/
theorem fields_of_fits {c : CmdWord} {i : Instr} (h : c &&& i.maskWord = i.matchWord) :
    opField c = i.op ∧ rsvField c = 0 := by
  obtain ⟨hmaskOp, hmaskRsv⟩ := maskWord_fields i
  obtain ⟨hmatchOp, hmatchRsv, -⟩ := matchWord_fields i
  constructor
  · calc opField c = opField c &&& opField i.maskWord := by rw [hmaskOp, BitVec.and_allOnes]
      _ = opField (c &&& i.maskWord) := BitVec.extractLsb'_and.symm
      _ = i.op := by rw [h, hmatchOp]
  · calc rsvField c = rsvField c &&& rsvField i.maskWord := by rw [hmaskRsv, BitVec.and_allOnes]
      _ = rsvField (c &&& i.maskWord) := BitVec.extractLsb'_and.symm
      _ = 0 := by rw [h, hmatchRsv]

/-- Settles O3: `match` and `mask` fix `OP` and `RSV`, the low byte is `IMM`, and no two rows share an `OP`. -/
theorem decodeFollowsTheOpcodeMap : Obligations.DecodeFollowsTheOpcodeMap := by
  refine ⟨fun c i => ?row, fun c i j hi hj => ?disjoint⟩
  case row =>
    rw [decode_eq_instr_iff, ← immField_toNat, BitVec.toNat_inj]
    constructor
    · rintro rfl
      obtain ⟨hfits, -, -, himm⟩ := encodedWord i
      exact ⟨hfits, himm⟩
    · rintro ⟨hfits, himm⟩
      obtain ⟨hop, hrsv⟩ := fields_of_fits hfits
      exact encode_eq_iff.mpr ⟨hop, hrsv, himm⟩
  case disjoint =>
    obtain ⟨hopi, -⟩ := fields_of_fits hi
    obtain ⟨hopj, -⟩ := fields_of_fits hj
    exact matchWord_eq_of_op_eq (hopi.symm.trans hopj)

/-- The values of `OP` outside 1 to 12 are the four reserved ones (30 R58 clause 1). -/
theorem mem_reservedOps {n : Nat} (h : n = 0 ∨ 13 ≤ n) (hlt : n < 16) : n ∈ [0x0, 0xD, 0xE, 0xF] := by
  simp only [List.mem_cons, List.not_mem_nil, or_false]
  omega

/-- No command has a reserved `OP` (30 R58 clause 1). -/
theorem op_not_reserved (i : Instr) : i.op.toNat ∉ [0x0, 0xD, 0xE, 0xF] := by
  cases i <;> simp [Instr.op]

/-- The commands of the six rows of format `N` have `IMM` = 0 (30 R58 clause 3). -/
theorem imm_eq_zero_of_op_formatN {i : Instr} (h : i.op.toNat ∈ [0x3, 0x4, 0x5, 0x6, 0x9, 0xA]) : i.imm = 0 := by
  cases i with
  | theta | rho | pi | chi | permute | extract256 => rfl
  | rotl | rconst | iota | round | wrlane | rdlane => simp [Instr.op] at h

/-- Settles O4: a rejected word meets a clause by the decoder's branches, and the fields of a command meet none. -/
theorem illegalWordsAreTheThreeClauses : Obligations.IllegalWordsAreTheThreeClauses := by
  intro c
  constructor
  · rintro ⟨e, h⟩
    have hlt : (c >>> 12).toNat < 16 := by rw [← opField_toNat]; exact (opField c).isLt
    rcases fields_of_decode_illegal h with hop | hop | hrsv | himm
    · exact .inl (mem_reservedOps (.inl hop) hlt)
    · exact .inl (mem_reservedOps (.inr hop) hlt)
    · exact .inr (.inl hrsv)
    · exact .inr (.inr himm)
  · intro hclause
    cases h : decode c with
    | illegal e => exact ⟨e, rfl⟩
    | instr i =>
      obtain ⟨hop, hrsv, himm⟩ := fields_of_decode_instr h
      rw [hop, himm] at hclause
      rcases hclause with hreserved | hne | ⟨hformat, hne⟩
      · exact absurd hreserved (op_not_reserved i)
      · exact absurd hrsv hne
      · exact absurd (by rw [imm_eq_zero_of_op_formatN hformat]; rfl) hne

/-! ### The data operand and the assembled pair -/

/-- Settles O17: the two states have the same block, and outside format `ID` a command looks no further. -/
theorem dataOperandIsIgnoredOutsideFormatID : Obligations.DataOperandIsIgnoredOutsideFormatID := by
  intro s i d₁ d₂ rest hformat
  have hb : (s.taking d₁ rest).block = (s.taking d₂ rest).block := by simp
  exact exec_endAlike hb fun hid => absurd hid hformat

/-- The pair that a command assembles to (30 R61). -/
theorem assemble_eq (i : Instr) (v : Word) : assemble i v = (encode i, if i.format = .id then v else 0) := by
  unfold assemble
  cases i.format <;> rfl

/-- Settles O53: the word of the pair is the encoding of the command. -/
theorem assembledPairIsTheCommand : Obligations.AssembledPairIsTheCommand := by
  intro i v
  rw [assemble_eq]
  exact ⟨decodeOfEncode i, rfl⟩

end Sys2Proof.Machine

/-! PROOFS. The pseudo-instructions: a script of commands that each transform the lanes runs one command a step
(30_encoding.md R62, R63; 20_memory.md R47). -/

namespace Sys2Proof.Machine

/-- From `s` the events up to `rest` were taken, `n` empty responses were given, and of the block the lanes alone
changed, to `A`; the block is at a command boundary again. -/
structure RanTo (s t : State) (A : Lanes) (n : Nat) (rest : List HostEvent) : Prop where
  /-- The lanes reached. -/
  lanes : t.lanes = A
  /-- `RND`, `FAULT` and `CAUSE` are as before. -/
  status : SameStatus s t
  /-- The last command is over. -/
  busy : t.busy = false
  /-- What the host does next. -/
  inputs : t.inputs = rest
  /-- No reset came between. -/
  resets : t.resets = s.resets
  /-- One empty response for each command. -/
  responses : t.responses = s.responses ++ List.replicate n .noData

/-- The block is ready again after the script: `BUSY` = 0, and `FAULT` as before. -/
theorem RanTo.cmdReady {s t : State} {A : Lanes} {n : Nat} {rest : List HostEvent} (h : RanTo s t A n rest)
    (hs : s.cmdReady = true) : t.cmdReady = true := by
  obtain ⟨-, hfault, -⟩ := h.status
  obtain ⟨-, hrunning⟩ := (cmdReady_iff s).mp hs
  exact (cmdReady_iff t).mpr ⟨h.busy, hfault.trans hrunning⟩

/-- Two scripts run one after the other. -/
theorem RanTo.trans {s t u : State} {A B : Lanes} {m n : Nat} {mid rest : List HostEvent} (h : RanTo s t A m mid)
    (h' : RanTo t u B n rest) : RanTo s u B (m + n) rest where
  lanes := h'.lanes
  status := by
    obtain ⟨hrnd, hfault, hcause⟩ := h.status
    obtain ⟨hrnd', hfault', hcause'⟩ := h'.status
    exact ⟨hrnd'.trans hrnd, hfault'.trans hfault, hcause'.trans hcause⟩
  busy := h'.busy
  inputs := h'.inputs
  resets := h'.resets.trans h.resets
  responses := by rw [h'.responses, h.responses, List.append_assoc, List.replicate_append_replicate]

/-- The empty script leaves a ready block as it is. -/
theorem ranTo_refl {s : State} (h : s.cmdReady = true) : RanTo s s s.lanes 0 s.inputs where
  lanes := rfl
  status := ⟨rfl, rfl, rfl⟩
  busy := ((cmdReady_iff s).mp h).1
  inputs := rfl
  resets := rfl
  responses := by simp

/-- The pair is the word of a command that replaces the lanes by `f` of them and answers nothing. -/
def TransformsBy (p : ScriptLine) (f : Lanes → Lanes) : Prop :=
  ∃ i, decode p.1 = .instr i ∧
    ∀ s : State, s.wdata = p.2 → exec i s = .next ((s.setLanes (f s.lanes)).respond .noData)

/-- One step of a ready block executes such a pair. -/
theorem step_of_transformsBy {p : ScriptLine} {f : Lanes → Lanes} (hp : TransformsBy p f) {s : State}
    {rest : List HostEvent} (hready : s.cmdReady = true) (hinputs : s.inputs = .command p.1 p.2 :: rest) :
    ∃ t, step s = .next t ∧ RanTo s t (f s.lanes) 1 rest := by
  obtain ⟨i, hdecode, hexec⟩ := hp
  refine ⟨_, (stepRunsTheDecodedCommand s _ _ rest i hready hinputs hdecode).trans (hexec _ rfl), ?_⟩
  constructor <;> simp [SameStatus]

/-- A step that answers a next state is the first of a run. -/
theorem run_succ_of_step {M : Host.Core} {s t : M.State} (h : M.step s = .next t) (n : Nat) :
    M.run (n + 1) s = M.run n t := by
  rw [Host.Core.run, h]

/-- A script of such pairs, one for each entry of `l`, folds their transforms over the lanes. -/
theorem run_script {α : Type} {line : α → ScriptLine} {f : Lanes → α → Lanes} {l : List α}
    (hl : ∀ a ∈ l, TransformsBy (line a) (f · a)) {s : State} {rest : List HostEvent} (hready : s.cmdReady = true)
    (hinputs : s.inputs = issue (l.map line) ++ rest) :
    ∃ t, core.run l.length s = .next t ∧ RanTo s t (l.foldl f s.lanes) l.length rest := by
  induction l generalizing s with
  | nil =>
    have hrest : s.inputs = rest := hinputs
    exact ⟨s, rfl, hrest ▸ ranTo_refl hready⟩
  | cons a l ih =>
    rw [List.forall_mem_cons] at hl
    obtain ⟨ha, hl⟩ := hl
    obtain ⟨u, hstep, hu⟩ := step_of_transformsBy ha hready hinputs
    obtain ⟨t, hrun, ht⟩ := ih hl (hu.cmdReady hready) hu.inputs
    refine ⟨t, (run_succ_of_step (M := core) hstep _).trans hrun, ?_⟩
    rw [hu.lanes] at ht
    simpa [Nat.add_comm] using hu.trans ht

/-! ### LDSTATE -/

/-- Write lane `k` with the value that the lane file `v` has for it. -/
def loadLane (v A : Lanes) (k : Fin 25) : Lanes := A.set k.val v[k] k.isLt

/-- The line for lane `k` in the expansion of LDSTATE writes that lane (44 R110). -/
theorem transformsBy_wrlane (v : Lanes) (k : Fin 25) :
    TransformsBy (assemble (.wrlane (BitVec.ofNat 8 k.val)) v[k]) (loadLane v · k) := by
  have hk : (BitVec.ofNat 8 k.val).toNat = k.val := Nat.mod_eq_of_lt (by omega)
  refine ⟨_, decodeOfEncode _, fun s hwdata => ?_⟩
  have hvalue : s.wdata = v[k] := hwdata
  rw [exec_wrlane_of_le (by omega), hvalue]
  simp only [hk]
  rfl

/-- Writing the lanes of a list leaves those lanes with the values of `v` and the others as they were. -/
theorem foldl_loadLane_get (v : Lanes) (l : List (Fin 25)) (A : Lanes) (j : Fin 25) :
    (l.foldl (loadLane v) A)[j] = if j ∈ l then v[j] else A[j] := by
  induction l generalizing A with
  | nil => rfl
  | cons k l ih =>
    rw [List.foldl_cons, ih]
    by_cases hjl : j ∈ l
    · simp [hjl]
    · by_cases hjk : j = k
      · subst hjk
        simp [hjl, loadLane]
      · have hne : k.val ≠ j.val := fun h => hjk (Fin.ext h.symm)
        simp [hjl, hjk, loadLane, hne]

/-- Writing all 25 lanes leaves the lane file `v`, whatever it was before. -/
theorem foldl_loadLane_finRange (v A : Lanes) : (List.finRange 25).foldl (loadLane v) A = v :=
  lanes_ext fun j => by simp [foldl_loadLane_get, -Fin.getElem_fin]

/-- Settles O54: LDSTATE is a script of lane writes, and together they write every lane. -/
theorem ldstateLoadsTheLaneFile : Obligations.LdstateLoadsTheLaneFile := by
  intro s v rest hready hinputs
  obtain ⟨t, hrun, ht⟩ := run_script (fun k _ => transformsBy_wrlane v k) hready hinputs
  rw [foldl_loadLane_finRange] at ht
  rw [List.length_finRange] at hrun ht
  exact ⟨t, hrun, ht.lanes, ht.status, ht.busy, ht.inputs, ht.resets, ht.responses⟩

/-! ### ROUNDS -/

/-- The line for round `r` in the expansion of ROUNDS is that round (42 R98). -/
theorem transformsBy_round (r : Fin 24) :
    TransformsBy (assemble (.round (BitVec.ofNat 8 r.val)) 0) (roundLanes · r) := by
  have hr : (BitVec.ofNat 8 r.val).toNat = r.val := Nat.mod_eq_of_lt (by omega)
  refine ⟨_, decodeOfEncode _, fun s _ => ?_⟩
  rw [exec_round_of_le (by omega)]
  simp only [hr]

/-- Settles O55: ROUNDS folds the 24 rounds over the lanes, as PERMUTE does, and `RND` stays 0. -/
theorem roundsHasTheEffectOfPermute : Obligations.RoundsHasTheEffectOfPermute := by
  intro s rest hready hrnd hinputs
  obtain ⟨t, hrun, ht⟩ := run_script (fun r _ => transformsBy_round r) hready hinputs
  rw [List.length_finRange] at hrun
  obtain ⟨hrnd', hfault, hcause⟩ := ht.status
  exact ⟨t, _, hrun, exec_permute s, block_eq_iff.mpr ⟨ht.lanes, hrnd'.trans hrnd, hfault, hcause⟩, ht.inputs⟩

end Sys2Proof.Machine

/-! PROOFS. The rotator: it moves bit `p` to bit `(p + n) mod 64`, and the laws of rotation are read off the moved bits
(40_rotate_left64.md R70 to R74). -/

namespace Sys2Proof.Machine

/-- `ROTL64` is the library's rotation of a 64-bit word: where 64 divides the amount, its left term alone remains. -/
theorem rotl64_eq_rotateLeft (v : Word) (n : Nat) : rotl64 v n = v.rotateLeft n := by
  rw [rotl64, BitVec.rotateLeft_def]
  by_cases h : n % 64 = 0
  · have hright : v >>> 64 = 0#64 := BitVec.ushiftRight_eq_zero (Nat.le_refl 64)
    simp [h, hright]
  · rw [if_neg h]

/-- Bit `p` becomes bit `(p + n) mod 64` (40 R70): it comes out of the right term when it wraps, else of the left. -/
theorem rotl64_getLsbD_add_mod (v : Word) (n : Nat) {p : Nat} (hp : p < 64) :
    (rotl64 v n).getLsbD ((p + n) % 64) = v.getLsbD p := by
  rw [rotl64_eq_rotateLeft, BitVec.getLsbD_rotateLeft]
  by_cases hwrap : (p + n) % 64 < n % 64
  · have hfrom : 64 - n % 64 + (p + n) % 64 = p := by omega
    simp [hwrap, hfrom]
  · have hfrom : (p + n) % 64 - n % 64 = p := by omega
    simp [hwrap, hfrom, Nat.mod_lt]

/-- A word is the rotated value exactly when it has every bit moved: each of the 64 positions is reached. -/
theorem rotl64_eq_iff {v w : Word} {n : Nat} :
    rotl64 v n = w ↔ ∀ p, p < 64 → w.getLsbD ((p + n) % 64) = v.getLsbD p := by
  constructor
  · rintro rfl p hp
    exact rotl64_getLsbD_add_mod v n hp
  · intro h
    apply BitVec.eq_of_getLsbD_eq
    intro i hi
    have hp : (i + (64 - n % 64)) % 64 < 64 := Nat.mod_lt _ (by decide)
    have hreach : ((i + (64 - n % 64)) % 64 + n) % 64 = i := by omega
    rw [← hreach, rotl64_getLsbD_add_mod v n hp, h _ hp]

/-- Rotation by 0 is the identity (40 R71). -/
@[simp] theorem rotl64_zero (v : Word) : rotl64 v 0 = v := rfl

/-- The amount counts modulo 64 (40 R71). -/
theorem rotl64_mod (v : Word) (n : Nat) : rotl64 v (n % 64) = rotl64 v n := by
  simp only [rotl64, Nat.mod_mod]

/-- The formula of 40 R70 for the amounts that do not reduce to 0. -/
theorem rotl64_eq_shifts (v : Word) {n : Nat} (h₁ : 1 ≤ n) (h₆₃ : n ≤ 63) :
    rotl64 v n = (v <<< n) ||| (v >>> (64 - n)) := by
  have hmod : n % 64 = n := Nat.mod_eq_of_lt (by omega)
  rw [rotl64, hmod, if_neg (by omega)]

/-- The left shift leaves the low `n` bits clear and the right shift all others, so the two terms share no bit. -/
theorem shiftLeft_and_ushiftRight_eq_zero (v : Word) (n : Nat) : (v <<< n) &&& (v >>> (64 - n)) = 0 := by
  apply BitVec.eq_of_getLsbD_eq
  intro i hi
  rw [BitVec.getLsbD_and, BitVec.getLsbD_shiftLeft, BitVec.getLsbD_ushiftRight]
  by_cases hlow : i < n
  · simp [hlow]
  · have houtside : v.getLsbD (64 - n + i) = false := BitVec.getLsbD_of_ge v _ (by omega)
    simp [houtside]

/-- Rotations by `a` and then `b` move each bit up `a + b` places (40 R73). -/
theorem rotl64_rotl64 (v : Word) (a b : Nat) : rotl64 (rotl64 v a) b = rotl64 v (a + b) := by
  refine (rotl64_eq_iff.mpr fun p hp => ?_).symm
  have hmoved : (p + (a + b)) % 64 = ((p + a) % 64 + b) % 64 := by omega
  rw [hmoved, rotl64_getLsbD_add_mod _ b (Nat.mod_lt _ (by decide)), rotl64_getLsbD_add_mod v a hp]

/-- Rotation all the way round is the identity (40 R73). -/
theorem rotl64_width (v : Word) : rotl64 v 64 = v := by
  rw [← rotl64_mod, Nat.mod_self, rotl64_zero]

/-- Rotation distributes over XOR (40 R74). -/
theorem rotl64_xor (v w : Word) (n : Nat) : rotl64 (v ^^^ w) n = rotl64 v n ^^^ rotl64 w n :=
  rotl64_eq_iff.mpr fun p hp => by simp only [BitVec.getLsbD_xor, rotl64_getLsbD_add_mod _ n hp]

/-- Rotation distributes over AND (40 R74). -/
theorem rotl64_and (v w : Word) (n : Nat) : rotl64 (v &&& w) n = rotl64 v n &&& rotl64 w n :=
  rotl64_eq_iff.mpr fun p hp => by simp only [BitVec.getLsbD_and, rotl64_getLsbD_add_mod _ n hp]

/-- Rotation distributes over NOT: the bit read and the bit moved are both below 64 (40 R74). -/
theorem rotl64_not (v : Word) (n : Nat) : rotl64 (~~~v) n = ~~~(rotl64 v n) := by
  refine rotl64_eq_iff.mpr fun p hp => ?_
  have hmoved : (p + n) % 64 < 64 := Nat.mod_lt _ (by decide)
  simp only [BitVec.getLsbD_not, hp, hmoved, rotl64_getLsbD_add_mod v n hp]

/-- Settles O25: the bits moved, the formula with its two disjoint terms, and the amounts outside 1 to 63. -/
theorem rotationMovesEveryBit : Obligations.RotationMovesEveryBit :=
  ⟨fun v n _ hp => rotl64_getLsbD_add_mod v n hp,
    fun v n h₁ h₆₃ => ⟨rotl64_eq_shifts v h₁ h₆₃, shiftLeft_and_ushiftRight_eq_zero v n⟩,
    rotl64_zero, fun v n => (rotl64_mod v n).symm⟩

/-- Settles O26: the inverse law is the composition of two rotations that go all the way round. -/
theorem rotationsCompose : Obligations.RotationsCompose := by
  refine ⟨fun v n _ h₆₃ => ?_, rotl64_rotl64, rotl64_width⟩
  have hround : n + (64 - n) = 64 := by omega
  rw [rotl64_rotl64, hround, rotl64_width]

/-- Settles O27: each operation acts bit by bit, and rotation moves the bits. -/
theorem rotationDistributes : Obligations.RotationDistributes :=
  fun v w n => ⟨rotl64_xor v w n, rotl64_and v w n, rotl64_not v n⟩

/-- Settles O28: ROTL answers the rotated operand, and a response leaves the block alone. -/
theorem rotlAnswersTheRotatedOperand : Obligations.RotlAnswersTheRotatedOperand := by
  intro n s
  refine ⟨_, _, exec_rotl n s, respond_answered .., fun p hp => ?_, respond_block ..⟩
  rw [rotl64_mod, rotl64_getLsbD_add_mod s.wdata n.toNat hp]

end Sys2Proof.Machine

/-! PROOFS. The round constants: the decoder bit by bit, the table and the command that answers it, and the generator
as multiplication by X modulo its polynomial (41_round_constant.md R75 to R83). -/

namespace Sys2Proof.Machine

/-! ### The decoder -/

/-- One term of the decoder has at most one bit: bit `2^j - 1`, which is bit `j` of the byte (41 R77). -/
theorem rcBit_getLsbD (b : Byte) {j : Nat} (hj : j ≤ 6) (p : Nat) :
    (rcBit b j).getLsbD p = (decide (p = 2 ^ j - 1) && b.getLsbD j) := by
  have hfits : 2 ^ j ≤ 2 ^ 6 := Nat.pow_le_pow_right (by decide) hj
  rw [rcBit, BitVec.getLsbD_shiftLeft, BitVec.getLsbD_setWidth, BitVec.getLsbD_ofBool]
  by_cases hp : p = 2 ^ j - 1
  · have hlt : p < 64 := by omega
    simp [← hp, hlt]
  · have hoff : p < 2 ^ j - 1 ∨ p - (2 ^ j - 1) ≠ 0 := by omega
    rcases hoff with h | h <;> simp [h, hp]

/-- A bit of the constant is a bit of one of the seven terms. -/
theorem rcDecode_getLsbD_iff_rcBit (b : Byte) (p : Nat) :
    (rcDecode b).getLsbD p = true ↔ ∃ j, j ≤ 6 ∧ (rcBit b j).getLsbD p = true := by
  simp only [rcDecode, BitVec.getLsbD_or, Bool.or_eq_true, Nat.le_iff_lt_add_one, Nat.exists_lt_succ_right,
    Nat.not_lt_zero, false_and, exists_false, false_or]

/-- The bits of the constant are bits 0 to 6 of the byte in their places (41 R77). -/
theorem rcDecode_getLsbD_iff (b : Byte) (p : Nat) :
    (rcDecode b).getLsbD p = true ↔ ∃ j, j ≤ 6 ∧ p = 2 ^ j - 1 ∧ b.getLsbD j = true := by
  rw [rcDecode_getLsbD_iff_rcBit]
  refine exists_congr fun j => and_congr_right fun hj => ?_
  rw [rcBit_getLsbD b hj, Bool.and_eq_true, decide_eq_true_iff]

/-- The places `2^j - 1` are distinct. -/
theorem rcPlace_inj {i j : Nat} (h : 2 ^ i - 1 = 2 ^ j - 1) : i = j := by
  have hi : 0 < 2 ^ i := Nat.two_pow_pos i
  have hj : 0 < 2 ^ j := Nat.two_pow_pos j
  exact Nat.pow_right_injective (le_refl 2) (by simp only; omega)

/-- In the place of bit `j` the constant has that bit of the byte. -/
theorem rcDecode_getLsbD_place (b : Byte) {j : Nat} (hj : j ≤ 6) :
    (rcDecode b).getLsbD (2 ^ j - 1) = b.getLsbD j := by
  rw [Bool.eq_iff_iff, rcDecode_getLsbD_iff]
  constructor
  · rintro ⟨i, -, hplace, hbit⟩
    rwa [rcPlace_inj hplace]
  · exact fun hbit => ⟨j, hj, rfl, hbit⟩

/-- Two bytes agree modulo 128 exactly when they agree on bits 0 to 6. -/
theorem mod_128_eq_iff (a b : Byte) :
    a.toNat % 128 = b.toNat % 128 ↔ ∀ j, j ≤ 6 → a.getLsbD j = b.getLsbD j := by
  have hlow (v : Byte) : v.toNat % 128 = (v.setWidth 7).toNat := (BitVec.toNat_setWidth 7 v).symm
  rw [hlow, hlow, BitVec.toNat_inj]
  constructor
  · intro h j hj
    have hbit := congrArg (BitVec.getLsbD · j) h
    simpa [Nat.lt_succ_of_le hj] using hbit
  · intro h
    apply BitVec.eq_of_getLsbD_eq
    intro j hj
    simp [hj, h j (Nat.le_of_lt_succ hj)]

/-- Settles O29: the constants of two bytes have the same bits exactly when the bytes have the same bits 0 to 6. -/
theorem decoderPlacesSevenBits : Obligations.DecoderPlacesSevenBits := by
  refine ⟨rcDecode_getLsbD_iff, fun a b => ?_⟩
  rw [mod_128_eq_iff]
  constructor
  · intro h j hj
    rw [← rcDecode_getLsbD_place a hj, h, rcDecode_getLsbD_place b hj]
  · intro h
    apply BitVec.eq_of_getLsbD_eq
    intro p _
    rw [Bool.eq_iff_iff, rcDecode_getLsbD_iff, rcDecode_getLsbD_iff]
    exact exists_congr fun j => and_congr_right fun hj => by rw [h j hj]

/-! ### The table and RCONST -/

/-- The constant of a round is the decoded entry of the ROM (41 R80). -/
theorem roundConstant_eq (r : Fin 24) : roundConstant r = rcDecode rom[r] := by
  rw [roundConstant, pick_eq]

/-- No bit of a decoded byte lies outside the mask: the mask has all seven places. -/
theorem rcDecode_and_not_mask (b : Byte) : rcDecode b &&& ~~~(0x800000008000808B : Word) = 0 := by
  have hmask : (0x800000008000808B : Word) = rcDecode 0x7F := by decide
  apply BitVec.eq_of_getLsbD_eq
  intro p hp
  rw [BitVec.getLsbD_and, BitVec.getLsbD_not, hmask]
  cases hbit : (rcDecode b).getLsbD p with
  | false => simp
  | true =>
    obtain ⟨j, hj, rfl, -⟩ := (rcDecode_getLsbD_iff b p).mp hbit
    have hplace : (rcDecode 0x7F).getLsbD (2 ^ j - 1) = true := by
      rw [rcDecode_getLsbD_place _ hj]
      interval_cases j <;> rfl
    rw [hplace]
    simp

/-- Settles O30: so it is for every byte, the 24 of the ROM among them. -/
theorem constantsLieWithinTheMask : Obligations.ConstantsLieWithinTheMask :=
  fun r => rcDecode_and_not_mask (pick rom r)

/-- Settles O31: each row by evaluation of its two constants. -/
theorem constantsAreTheOracleTable : Obligations.ConstantsAreTheOracleTable := by
  unfold Obligations.ConstantsAreTheOracleTable
  simp only [List.forall_mem_cons]
  refine ⟨⟨rfl, rfl, rfl⟩, ⟨rfl, rfl, rfl⟩, ⟨rfl, rfl, rfl⟩, ⟨rfl, rfl, rfl⟩, ⟨rfl, rfl, rfl⟩, ⟨rfl, rfl, rfl⟩,
    ⟨rfl, rfl, rfl⟩, ⟨rfl, rfl, rfl⟩, ⟨rfl, rfl, rfl⟩, ⟨rfl, rfl, rfl⟩, ⟨rfl, rfl, rfl⟩, ⟨rfl, rfl, rfl⟩, nofun⟩

/-- Settles O32: an index to 23 is answered with its constant and the block kept; the others are the fault entry. -/
theorem rconstAnswersOrFaults : Obligations.RconstAnswersOrFaults := by
  intro r s
  rcases Nat.lt_or_ge 23 r.toNat with hgt | hle
  · exact ⟨_, exec_rconst_of_gt hgt s, fun k hk => by omega, fun _ => raise_faultEntry s .rcRange⟩
  · refine ⟨_, exec_rconst_of_le hle s, fun k hk => ?_, fun hgt => by omega⟩
    have hindex : ⟨r.toNat, by omega⟩ = k := Fin.ext hk.symm
    rw [hindex, ← roundConstant_eq]
    exact ⟨respond_answered .., respond_block ..⟩

/-! ### The generator -/

/-- A bit as an element of GF(2). -/
def bitValue (b : Bool) : ZMod 2 := if b then 1 else 0

/-- XOR is addition. -/
theorem bitValue_xor (a b : Bool) : bitValue (a ^^ b) = bitValue a + bitValue b := by
  cases a <;> cases b <;> decide

/-- AND is multiplication. -/
theorem bitValue_and (a b : Bool) : bitValue (a && b) = bitValue a * bitValue b := by
  cases a <;> cases b <;> decide

/-- The polynomial over GF(2) whose coefficients are the bits of the register (41 R83). -/
noncomputable def bytePolynomial (r : Byte) : Polynomial (ZMod 2) :=
  ∑ i ∈ Finset.range 8, Polynomial.monomial i (bitValue (r.getLsbD i))

/-- Its coefficients are the bits, beyond bit 7 too. -/
theorem bytePolynomial_coeff (r : Byte) (i : Nat) : (bytePolynomial r).coeff i = bitValue (r.getLsbD i) := by
  simp only [bytePolynomial, Polynomial.finsetSum_coeff, Polynomial.coeff_monomial, Finset.sum_ite_eq',
    Finset.mem_range]
  split
  · rfl
  · next hge =>
    rw [BitVec.getLsbD_of_ge r i (by omega)]
    rfl

/-- The modulus of the generator (41 R83). -/
noncomputable def lfsrModulus : Polynomial (ZMod 2) :=
  Polynomial.X ^ 8 + Polynomial.X ^ 6 + Polynomial.X ^ 5 + Polynomial.X ^ 4 + 1

/-- The modulus has degree 8. -/
theorem lfsrModulus_degree : lfsrModulus.degree = 8 := by
  unfold lfsrModulus
  compute_degree!

/-- The modulus is monic. -/
theorem lfsrModulus_monic : lfsrModulus.Monic := by
  unfold lfsrModulus
  monicity!

/-- The coefficients of the modulus: the taps of the register at 0, 4, 5 and 6, and the leading term. -/
theorem lfsrModulus_coeff (i : Nat) :
    lfsrModulus.coeff i = bitValue (decide (i = 0 ∨ i = 4 ∨ i = 5 ∨ i = 6 ∨ i = 8)) := by
  simp only [lfsrModulus, Polynomial.coeff_add, Polynomial.coeff_X_pow, Polynomial.coeff_one, bitValue]
  by_cases hexp : i = 0 ∨ i = 4 ∨ i = 5 ∨ i = 6 ∨ i = 8
  · rcases hexp with rfl | rfl | rfl | rfl | rfl <;> rfl
  · simp only [not_or] at hexp
    simp [hexp]

/-- What the register holds is already reduced. -/
theorem bytePolynomial_degree_lt (r : Byte) : (bytePolynomial r).degree < lfsrModulus.degree := by
  rw [lfsrModulus_degree]
  refine (Polynomial.degree_lt_iff_coeff_zero _ 8).mpr fun i hi => ?_
  rw [bytePolynomial_coeff, BitVec.getLsbD_of_ge r i hi]
  rfl

/-- The register shifted left is the next register, XOR the modulus where a bit is shifted out (41 R83). -/
theorem lfsrStep_getLsbD_xor (r : Byte) (i : Nat) :
    (decide (0 < i) && r.getLsbD (i - 1)) =
      ((lfsrStep r).getLsbD i ^^ (r.getLsbD 7 && decide (i = 0 ∨ i = 4 ∨ i = 5 ∨ i = 6 ∨ i = 8))) := by
  rcases lt_trichotomy i 8 with hlt | rfl | hgt
  · have hne : i ≠ 8 := by omega
    simp [Laws.lfsrStep_getLsbD r i hlt, hne]
  · simp [BitVec.getLsbD_of_ge]
  · have hout : r.getLsbD (i - 1) = false := BitVec.getLsbD_of_ge r _ (by omega)
    have hnext : (lfsrStep r).getLsbD i = false := BitVec.getLsbD_of_ge _ i (by omega)
    have hcoeff : ¬ (i = 0 ∨ i = 4 ∨ i = 5 ∨ i = 6 ∨ i = 8) := by omega
    simp [hout, hnext, hcoeff]

/-- One step multiplies by X and takes off the modulus where a bit is shifted out. -/
theorem X_mul_bytePolynomial (r : Byte) :
    Polynomial.X * bytePolynomial r =
      bytePolynomial (lfsrStep r) + Polynomial.C (bitValue (r.getLsbD 7)) * lfsrModulus := by
  ext i
  have hshift : (Polynomial.X * bytePolynomial r).coeff i = bitValue (decide (0 < i) && r.getLsbD (i - 1)) := by
    cases i with
    | zero => exact Polynomial.coeff_X_mul_zero _
    | succ i => simp [bytePolynomial_coeff]
  rw [hshift, Polynomial.coeff_add, Polynomial.coeff_C_mul, bytePolynomial_coeff, lfsrModulus_coeff, ← bitValue_and,
    ← bitValue_xor, ← lfsrStep_getLsbD_xor]

/-- The register starts as the polynomial 1. -/
theorem bytePolynomial_one : bytePolynomial 0x01 = 1 := by
  ext i
  simp [bytePolynomial_coeff, Polynomial.coeff_one, bitValue, eq_comm]

/-- After `t` steps the register is congruent to X^t: each step multiplies both by X. -/
theorem lfsrModulus_dvd_X_pow_sub (t : Nat) :
    lfsrModulus ∣ Polynomial.X ^ t - bytePolynomial (lfsrRegister t) := by
  induction t with
  | zero =>
    rw [pow_zero, Laws.lfsrRegister_zero, bytePolynomial_one, sub_self]
    exact dvd_zero _
  | succ t ih =>
    have hsucc : Polynomial.X ^ (t + 1) - bytePolynomial (lfsrRegister (t + 1)) =
        Polynomial.X * (Polynomial.X ^ t - bytePolynomial (lfsrRegister t)) +
          Polynomial.C (bitValue ((lfsrRegister t).getLsbD 7)) * lfsrModulus := by
      rw [Laws.lfsrRegister_succ, mul_sub, X_mul_bytePolynomial]
      ring
    rw [hsucc]
    exact dvd_add (ih.mul_left _) (dvd_mul_left _ _)

/-- The register is the residue of X^t (41 R83). -/
theorem X_pow_modByMonic_lfsrModulus (t : Nat) :
    Polynomial.X ^ t %ₘ lfsrModulus = bytePolynomial (lfsrRegister t) :=
  calc Polynomial.X ^ t %ₘ lfsrModulus
      = bytePolynomial (lfsrRegister t) %ₘ lfsrModulus :=
        Polynomial.modByMonic_eq_of_dvd_sub lfsrModulus_monic (lfsrModulus_dvd_X_pow_sub t)
    _ = bytePolynomial (lfsrRegister t) :=
        (Polynomial.modByMonic_eq_self_iff lfsrModulus_monic).mpr (bytePolynomial_degree_lt _)

/-- Settles O56: the residue has the bits of the register for coefficients, and a constant has the bits of its ROM
entry in their places. -/
theorem constantsComeFromTheGenerator : Obligations.ConstantsComeFromTheGenerator := by
  refine ⟨fun t i => ?_, fun _ => rfl, rfl, fun r j hj => ?_⟩
  · exact (congrArg (Polynomial.coeff · i) (X_pow_modByMonic_lfsrModulus t)).trans (bytePolynomial_coeff _ i)
  · have hrom : rom[r].getLsbD j = lfsrBit (j + 7 * r.val) :=
      (Laws.rom_matches_generator r).1 ⟨j, Nat.lt_succ_of_le hj⟩
    exact ⟨hrom, by rw [roundConstant_eq, rcDecode_getLsbD_place _ hj, hrom]⟩

end Sys2Proof.Machine

/-! PROOFS. The permutation: the transforms by column and row, their in-place forms, the round and the permutation as
their commands one after the other, and why each is a bijection (42_permutation.md). -/

namespace Sys2Proof.Machine

/-! ### Theta, Rho, Pi and Chi by column and row -/

/-- A lane by its column and row (10 R11). -/
theorem laneAt_laneIndex (A : Lanes) (x y : Fin 5) : laneAt A (x.val + 5 * y.val) = A[laneIndex x y] :=
  laneAt_of_lt A (laneIndex x y).isLt

/-- Settles O33: the C and D of the statement are those of Theta, since the columns count modulo 5 in both. -/
theorem thetaMixesColumnParities : Obligations.ThetaMixesColumnParities := by
  intro s
  refine ⟨_, exec_theta s, setLanes_respond_answered .., setLanes_respond_sameStatus .., ?_⟩
  intro A C D hA hC hD x y hx hy
  lift x to Fin 5 using hx
  lift y to Fin 5 using hy
  have hparity (z : Fin 5) : C z.val = (thetaC s.lanes)[z] := by
    simp only [hC, hA, thetaC_get, ← laneAt_laneIndex]
    rfl
  have hmix : D x.val = (thetaD (thetaC s.lanes))[x] := by
    rw [hD, thetaD_get, ← hparity, ← hparity]
    rfl
  simp only [State.respond_lanes, State.setLanes_lanes, laneAt_laneIndex, theta_get, column_laneIndex, hA, hmix]

/-- The offsets of Rho by row and column: the second table of 42 R87. -/
def rhoOffsetRows : List (List Nat) :=
  [[0, 1, 62, 28, 27], [36, 44, 6, 55, 20], [3, 10, 43, 25, 39], [41, 45, 15, 21, 8], [18, 2, 61, 56, 14]]

/-- The two tables of 42 R87 agree. -/
theorem rhoOffsetRows_getElem (x y : Fin 5) :
    rhoOffsetRows[y.val]?.bind (·[x.val]?) = some rhoOffset[laneIndex x y] := by
  revert x y; decide

/-- Each row of the second table has an entry for each of the five columns. -/
theorem rhoOffsetRows_row_length : ∀ offsets ∈ rhoOffsetRows, offsets.length = 5 := by decide

/-- Settles O34: an entry found in the table of rows is the offset of its lane, and that of lane 0 is 0. -/
theorem rhoRotatesByTheOffsetTable : Obligations.RhoRotatesByTheOffsetTable := by
  intro s
  refine ⟨_, exec_rho s, setLanes_respond_answered .., setLanes_respond_sameStatus .., ?_, ?_⟩
  · exact rho_get s.lanes 0
  intro x y offsets n hrow hentry
  have hy : y < 5 := (List.getElem?_eq_some_iff.mp hrow).1
  have hx : x < 5 := by
    rw [← rhoOffsetRows_row_length offsets (List.mem_of_getElem? hrow)]
    exact (List.getElem?_eq_some_iff.mp hentry).1
  lift x to Fin 5 using hx
  lift y to Fin 5 using hy
  have hoffset : rhoOffset[laneIndex x y] = n := by
    have hrow' : rhoOffsetRows[y.val]? = some offsets := hrow
    have htables := rhoOffsetRows_getElem x y
    rw [hrow', Option.bind_some, hentry] at htables
    exact (Option.some.inj htables).symm
  simp only [State.respond_lanes, State.setLanes_lanes, laneAt_laneIndex, rho_get, hoffset]

/-- Pi's `DEST[i]`: the lane that takes the old value of lane `i`; that of (x,y) is (y, (2x + 3y) mod 5) (42 R89). -/
def piDest (i : Fin 25) : Fin 25 := laneIndex (row i) (2 * column i + 3 * row i)

/-- SRC takes back what DEST gives (42 R89). -/
theorem piSource_piDest (i : Fin 25) : piSource (piDest i) = i := by
  have hcolumn : ∀ x y : Fin 5, y + 3 * (2 * x + 3 * y) = x := by decide
  rw [piSource, piDest, column_laneIndex, row_laneIndex, hcolumn, laneIndex_column_row]

/-- Settles O35: the lane moved to is DEST, which SRC takes back. -/
theorem piMovesEveryLane : Obligations.PiMovesEveryLane := by
  intro s
  refine ⟨_, exec_pi s, setLanes_respond_answered .., setLanes_respond_sameStatus .., ?_⟩
  intro x y hx hy
  lift x to Fin 5 using hx
  lift y to Fin 5 using hy
  have hdest : piDest (laneIndex x y) = laneIndex y (2 * x + 3 * y) := by
    rw [piDest, column_laneIndex, row_laneIndex]
  have hrow : (2 * x.val + 3 * y.val) % 5 = (2 * x + 3 * y : Fin 5).val := by
    simp [Fin.val_add, Fin.val_mul]
  simp only [hrow, State.respond_lanes, State.setLanes_lanes, laneAt_laneIndex, pi_get, ← hdest, piSource_piDest]

/-- Settles O36: DEST as in the mapping; the tables and the cycle by evaluation. -/
theorem piTablesAndCycle : Obligations.PiTablesAndCycle :=
  ⟨piDest, by decide, by decide, piSource_piDest, by decide⟩

/-- A lane of Chi by its column and row (42 R92). -/
theorem chi_get_laneIndex (A : Lanes) (x y : Fin 5) :
    (chi A)[laneIndex x y] =
      A[laneIndex x y] ^^^ (~~~A[laneIndex (x + 1) y] &&& A[laneIndex (x + 2) y]) := by
  simp only [chi_get, column_laneIndex, row_laneIndex]

/-- Settles O39: the columns count modulo 5 in both. -/
theorem chiCombinesEachRow : Obligations.ChiCombinesEachRow := by
  intro s
  refine ⟨_, exec_chi s, setLanes_respond_answered .., setLanes_respond_sameStatus .., ?_⟩
  intro x y hx hy
  lift x to Fin 5 using hx
  lift y to Fin 5 using hy
  have hnext : (x.val + 1) % 5 = (x + 1).val := rfl
  have hnextButOne : (x.val + 2) % 5 = (x + 2).val := rfl
  simp only [hnext, hnextButOne, State.respond_lanes, State.setLanes_lanes, laneAt_laneIndex, chi_get_laneIndex]

/-! ### The in-place forms -/

/-- The assignments along a list touch no lane outside it (42 R90). -/
theorem copyAlong_get_of_notMem (saved : Word) {i : Fin 25} :
    ∀ (l : List (Fin 25)) (A : Lanes), i ∉ l → (copyAlong A saved l)[i] = A[i]
  | [], _, _ => rfl
  | [k], A, hi => by
    have hne : k.val ≠ i.val := fun h => hi (by simp [Fin.ext h])
    exact Vector.getElem_set_ne k.isLt i.isLt hne
  | k :: j :: rest, A, hi => by
    have hne : k.val ≠ i.val := fun h => hi (by simp [Fin.ext h])
    rw [copyAlong, copyAlong_get_of_notMem saved (j :: rest) _ fun h => hi (List.mem_cons_of_mem k h)]
    exact Vector.getElem_set_ne k.isLt i.isLt hne

/-- When each lane of the list is followed by its source, and the saved value is that of the last lane's source, every
lane of the list takes the value that its source had in `B`, the lane file before the assignments (42 R90). -/
theorem copyAlong_get_of_mem {f : Fin 25 → Fin 25} {B : Lanes} {saved : Word} {i : Fin 25} :
    ∀ (l : List (Fin 25)) (A : Lanes), l.Nodup → l.IsChain (fun k j => f k = j) → (∀ k ∈ l, A[k] = B[k]) →
      (∀ k ∈ l.getLast?, saved = B[f k]) → i ∈ l → (copyAlong A saved l)[i] = B[f i]
  | [k], A, _, _, _, hlast, hi => by
    obtain rfl := List.mem_singleton.mp hi
    rw [← hlast i rfl]
    exact Vector.getElem_set_self i.isLt
  | k :: j :: rest, A, hnodup, hchain, hold, hlast, hi => by
    obtain ⟨hk, hnodup⟩ := List.nodup_cons.mp hnodup
    obtain ⟨rfl, hchain⟩ := List.isChain_cons_cons.mp hchain
    rw [copyAlong]
    rcases List.mem_cons.mp hi with rfl | hi
    · rw [copyAlong_get_of_notMem saved _ _ hk, ← hold (f i) (by simp)]
      exact Vector.getElem_set_self i.isLt
    · refine copyAlong_get_of_mem (f k :: rest) _ hnodup hchain (fun m hm => ?_) (by simpa using hlast) hi
      have hne : k.val ≠ m.val := fun h => hk (Fin.ext h ▸ hm)
      rw [← hold m (List.mem_cons_of_mem k hm)]
      exact Vector.getElem_set_ne k.isLt m.isLt hne

/-- The cycle of in-place Pi runs along the sources of Pi, and back to lane 1, whose value is saved. -/
theorem piCycle_isChain : piCycle.IsChain (fun k j => piSource k = j) := by decide

/-- Settles O37: the lanes of the cycle each take the value of their source, and lane 0, outside it, is its own. -/
theorem inPlacePiIsPi : Obligations.InPlacePiIsPi := by
  intro A
  refine lanes_ext fun i => ?_
  rw [pi_get, piInPlace]
  by_cases hi : i ∈ piCycle
  · have hlast : ∀ k ∈ piCycle.getLast?, piSource k = 1 := by decide
    refine copyAlong_get_of_mem piCycle A (by decide) piCycle_isChain (fun _ _ => rfl) (fun k hk => ?_) hi
    simp only [hlast k hk]
    rfl
  · have houtside : ∀ i, i ∉ piCycle → piSource i = i := by decide
    simp only [copyAlong_get_of_notMem _ _ _ hi, houtside i hi]

/-- One assignment of in-place Chi changes the lane assigned alone (42 R93). -/
theorem chiAssign_get (A : Lanes) (k i : Fin 25) (p q : Word) :
    (chiAssign A k p q)[i] = if i = k then A[k] ^^^ (~~~p &&& q) else A[i] := by
  rcases eq_or_ne i k with rfl | hne
  · rw [if_pos rfl]
    exact Vector.getElem_set_self i.isLt
  · have hne' : k.val ≠ i.val := fun h => hne (Fin.ext h.symm)
    rw [if_neg hne]
    exact Vector.getElem_set_ne k.isLt i.isLt hne'

/-- A lane index determines its column and row (10 R11). -/
theorem laneIndex_inj {x y x' y' : Fin 5} : laneIndex x y = laneIndex x' y' ↔ x = x' ∧ y = y' := by
  constructor
  · intro h
    have hcolumn := congrArg column h
    have hrow := congrArg row h
    simp only [column_laneIndex, row_laneIndex] at hcolumn hrow
    exact ⟨hcolumn, hrow⟩
  · rintro ⟨rfl, rfl⟩
    rfl

/-- In-place Chi on row `y` leaves that row with the lanes of Chi: the lanes overwritten before they are read are 0 and
1, and those are saved (42 R93). -/
theorem chiRowInPlace_get_laneIndex (A : Lanes) (x y : Fin 5) :
    (chiRowInPlace A y)[laneIndex x y] = (chi A)[laneIndex x y] := by
  rw [chi_get_laneIndex]
  fin_cases x <;> simp [chiRowInPlace, chiAssign_get, laneIndex_inj, -Fin.getElem_fin]

/-- It leaves every other row as it was. -/
theorem chiRowInPlace_get_of_row_ne (A : Lanes) {y : Fin 5} {i : Fin 25} (h : row i ≠ y) :
    (chiRowInPlace A y)[i] = A[i] := by
  have hne (x : Fin 5) : i ≠ laneIndex x y := by
    rintro rfl
    exact h (row_laneIndex x y)
  simp only [chiRowInPlace, chiAssign_get, hne, if_false]

/-- A row of Chi depends on the lanes of that row alone (42 R92). -/
theorem chi_get_congr_row {A B : Lanes} {i : Fin 25} (h : ∀ j, row j = row i → A[j] = B[j]) :
    (chi A)[i] = (chi B)[i] := by
  rw [chi_get, chi_get, h i rfl, h _ (row_laneIndex ..), h _ (row_laneIndex ..)]

/-- Rows taken one after the other, each once, leave those rows with the lanes of Chi and the others as they were. -/
theorem foldl_chiRowInPlace_get (l : List (Fin 5)) (hl : l.Nodup) (A : Lanes) (i : Fin 25) :
    (l.foldl chiRowInPlace A)[i] = if row i ∈ l then (chi A)[i] else A[i] := by
  induction l generalizing A with
  | nil => rfl
  | cons y l ih =>
    obtain ⟨hy, hl⟩ := List.nodup_cons.mp hl
    rw [List.foldl_cons, ih hl]
    rcases eq_or_ne (row i) y with rfl | hne
    · have hrow := chiRowInPlace_get_laneIndex A (column i) (row i)
      simp only [laneIndex_column_row] at hrow
      rw [if_neg hy, hrow, if_pos List.mem_cons_self]
    · have hchi : (chi (chiRowInPlace A y))[i] = (chi A)[i] :=
        chi_get_congr_row fun j hj => chiRowInPlace_get_of_row_ne A (hj ▸ hne)
      simp only [hchi, chiRowInPlace_get_of_row_ne A hne, List.mem_cons, hne, false_or]

/-- Settles O40: an order of the rows has each of them once. -/
theorem inPlaceChiIsChi : Obligations.InPlaceChiIsChi := by
  intro A order horder
  refine lanes_ext fun i => ?_
  have hi : row i ∈ order := horder.mem_iff.mpr (List.mem_finRange _)
  rw [foldl_chiRowInPlace_get order (horder.nodup_iff.mpr (List.nodup_finRange 5)), if_pos hi]

/-! ### Iota, the round and the permutation -/

/-- Settles O41: an index to 23 changes lane 0 by its constant, which lies within the mask; the others are the fault
entry. -/
theorem iotaAddsTheConstantToLaneZero : Obligations.IotaAddsTheConstantToLaneZero := by
  intro r s
  rcases Nat.lt_or_ge 23 r.toNat with hgt | hle
  · exact ⟨_, exec_iota_of_gt hgt s, fun k hk => by omega, fun _ => raise_faultEntry s .rcRange⟩
  refine ⟨_, exec_iota_of_le hle s, fun k hk => ?_, fun hgt => by omega⟩
  have hindex : ⟨r.toNat, by omega⟩ = k := Fin.ext hk.symm
  simp only [hindex, State.respond_lanes, State.setLanes_lanes]
  have hzero : laneAt (iota s.lanes k) 0 = laneAt s.lanes 0 ^^^ rcDecode rom[k] := by
    rw [← roundConstant_eq]
    exact iota_getElem_zero s.lanes k
  refine ⟨setLanes_respond_answered .., setLanes_respond_sameStatus .., hzero, ?_, fun j hj hlt => ?_⟩
  · rw [hzero, xor_xor_cancel_comm]
    exact rcDecode_and_not_mask _
  · rw [laneAt_of_lt _ hlt, laneAt_of_lt _ hlt]
    exact iota_getElem_of_ne s.lanes k ⟨j, hlt⟩ (Nat.ne_of_gt hj)

/-- Settles O42: each of the five commands replaces the lanes by its transform of them, and the round is the five
transforms composed. -/
theorem roundIsItsFiveCommands : Obligations.RoundIsItsFiveCommands := by
  intro r s
  rcases Nat.lt_or_ge 23 r.toNat with hgt | hle
  · exact ⟨_, exec_round_of_gt hgt s, fun hle => by omega, fun _ => raise_faultEntry s .rcRange⟩
  refine ⟨_, exec_round_of_le hle s, fun _ => ?_, fun hgt => by omega⟩
  refine ⟨setLanes_respond_answered .., setLanes_respond_sameStatus .., ?_⟩
  rw [execAll_cons (exec_theta s), execAll_cons (exec_rho _), execAll_cons (exec_pi _), execAll_cons (exec_chi _),
    execAll_cons (exec_iota_of_le hle _)]
  exact ⟨_, execAll_nil _, by simp [block_eq_iff, roundLanes]⟩

/-- ROUND with the number of a round for its operand (42 R98). -/
theorem exec_round_ofNat (r : Fin 24) (s : State) :
    exec (.round (BitVec.ofNat 8 r.val)) s = .next ((s.setLanes (roundLanes s.lanes r)).respond .noData) := by
  have hr : (BitVec.ofNat 8 r.val).toNat = r.val := Nat.mod_eq_of_lt (by omega)
  rw [exec_round_of_le (by omega)]
  simp only [hr]

/-- ROUND for each round of a list leaves the lanes of those rounds, and nothing else in the block is changed. -/
theorem execAll_rounds (l : List (Fin 24)) (s : State) :
    ∃ u, execAll (l.map fun r => .round (BitVec.ofNat 8 r.val)) s = .next u ∧
      u.lanes = l.foldl roundLanes s.lanes ∧ SameStatus s u := by
  induction l generalizing s with
  | nil => exact ⟨s, rfl, rfl, rfl, rfl, rfl⟩
  | cons r l ih =>
    rw [List.map_cons, execAll_cons (exec_round_ofNat r s)]
    exact ih _

/-- Settles O43: PERMUTE and the 24 rounds fold the same rounds over the lanes; PERMUTE leaves `RND` = 0 and the rounds
leave it as it was. -/
theorem permuteIsTwentyFourRounds : Obligations.PermuteIsTwentyFourRounds := by
  intro s
  obtain ⟨u, hu, hlanes, hrnd, hfault, hcause⟩ := execAll_rounds (List.finRange 24) s
  refine ⟨_, exec_permute s, by simp [Answered], rfl, rfl, rfl, u, ?_, hlanes.symm, fun h0 => ?_⟩
  · rw [← hu, ← List.map_coe_finRange_eq_range, List.map_map]
    rfl
  · exact block_eq_iff.mpr ⟨hlanes.symm, (hrnd.trans h0).symm, hfault.symm, hcause.symm⟩

/-! ### Linearity -/

/-- A lane of the zero State. -/
theorem zeroLanes_get (i : Fin 25) : zeroLanes[i] = 0 := buildLanes_get _ i

/-- `D` of an XOR of lane files is the XOR of theirs: `C` adds lanes up, and rotation distributes (40 R74). -/
theorem thetaD_thetaC_xorLanes (A B : Lanes) (x : Fin 5) :
    (thetaD (thetaC (xorLanes A B)))[x] = (thetaD (thetaC A))[x] ^^^ (thetaD (thetaC B))[x] := by
  simp only [thetaD_get, thetaC_get, xorLanes_get, rotl64_xor]
  ac_rfl

/-- Theta is linear (42 R102). -/
theorem theta_xorLanes (A B : Lanes) : theta (xorLanes A B) = xorLanes (theta A) (theta B) := by
  refine lanes_ext fun i => ?_
  simp only [theta_get, xorLanes_get, thetaD_thetaC_xorLanes]
  ac_rfl

/-- Rho is linear (42 R102). -/
theorem rho_xorLanes (A B : Lanes) : rho (xorLanes A B) = xorLanes (rho A) (rho B) :=
  lanes_ext fun i => by simp only [rho_get, xorLanes_get, rotl64_xor]

/-- Pi is linear (42 R102). -/
theorem pi_xorLanes (A B : Lanes) : pi (xorLanes A B) = xorLanes (pi A) (pi B) :=
  lanes_ext fun i => by simp only [pi_get, xorLanes_get]

/-- Iota adds the lane file that it makes of the zero State (42 R102). -/
theorem iota_eq_xorLanes (A : Lanes) (r : Fin 24) : iota A r = xorLanes A (iota zeroLanes r) := by
  refine lanes_ext fun i => ?_
  rw [xorLanes_get]
  rcases eq_or_ne i 0 with rfl | hne
  · have hzero : (iota zeroLanes r)[(0 : Fin 25)] = zeroLanes[(0 : Fin 25)] ^^^ roundConstant r :=
      iota_getElem_zero zeroLanes r
    rw [hzero, zeroLanes_get, zero_xor]
    exact iota_getElem_zero A r
  · have hi : i.val ≠ 0 := fun h => hne (Fin.ext h)
    rw [iota_getElem_of_ne A r i hi, iota_getElem_of_ne zeroLanes r i hi, zeroLanes_get, xor_zero]

/-- One bit set, in lane 2. -/
def bitInLaneTwo : Lanes := buildLanes fun i => if i = 2 then 1 else 0

/-- A bit in lane 2 comes into lane 0 through Chi, and a bit in lane 1 beside it keeps it out: Chi is not linear. -/
theorem chi_xorLanes_ne :
    chi (xorLanes bitInLaneOne bitInLaneTwo) ≠ xorLanes (chi bitInLaneOne) (chi bitInLaneTwo) := by
  intro h
  have hlane : pick (chi (xorLanes bitInLaneOne bitInLaneTwo)) 0 =
      pick (xorLanes (chi bitInLaneOne) (chi bitInLaneTwo)) 0 := by rw [h]
  exact absurd hlane (by decide +kernel)

/-- Settles O45: the three linear transforms, Iota's constant lane file, and two States that Chi tells apart. -/
theorem linearTransforms : Obligations.LinearTransforms :=
  ⟨fun A B => ⟨theta_xorLanes A B, rho_xorLanes A B, pi_xorLanes A B⟩,
    fun r => ⟨iota zeroLanes r, fun A => iota_eq_xorLanes A r⟩, _, _, chi_xorLanes_ne⟩

/-! ### Orders and bijections -/

/-- A function that a number of applications takes back to the start is a bijection: one application fewer inverts
it. -/
theorem bijective_of_iterate_succ {α : Type} {f : α → α} {n : Nat} (h : ∀ a, f^[n + 1] a = a) :
    Function.Bijective f :=
  Function.bijective_iff_has_inverse.mpr
    ⟨f^[n], h, fun a => (Function.iterate_succ_apply' f n a).symm.trans (h a)⟩

/-- Pi applied `n` times brings a lane from its source's source, `n` times over. -/
theorem pi_iterate_get (n : Nat) (A : Lanes) (k : Fin 25) : (pi^[n] A)[k] = A[piSource^[n] k] := by
  induction n generalizing k with
  | zero => rfl
  | succ n ih => simp only [Function.iterate_succ_apply', pi_get, ih, ← Function.iterate_succ_apply]

/-- The 24 lanes of the cycle, and lane 0, are back in their places after 24 applications of Pi (42 R91). -/
theorem pi_iterate_twentyFour (A : Lanes) : pi^[24] A = A := by
  have hcycle : ∀ k, piSource^[24] k = k := by decide
  exact lanes_ext fun k => by simp only [pi_iterate_get, hcycle]

/-- A lane of the State with one bit set. -/
theorem bitInLaneOne_get (i : Fin 25) : bitInLaneOne[i] = if i = 1 then 1 else 0 := buildLanes_get _ i

/-- Settles O38: a bit in lane 1 is in another lane of the cycle until the 24th application. -/
theorem piHasOrderTwentyFour : Obligations.PiHasOrderTwentyFour := by
  refine ⟨pi_iterate_twentyFour, fun n hpos hlt => ⟨bitInLaneOne, fun heq => ?_⟩⟩
  have haway : ∀ n < 24, 0 < n → piSource^[n] 1 ≠ 1 := by decide
  have hlane : (pi^[n] bitInLaneOne)[(1 : Fin 25)] = bitInLaneOne[(1 : Fin 25)] := by rw [heq]
  rw [pi_iterate_get, bitInLaneOne_get, bitInLaneOne_get, if_neg (haway n hlt hpos)] at hlane
  exact absurd hlane (by decide)

/-- Rho applied `n` times rotates each lane by `n` times its offset. -/
theorem rho_iterate_get (n : Nat) (A : Lanes) (i : Fin 25) : (rho^[n] A)[i] = rotl64 A[i] (n * rhoOffset[i]) := by
  induction n with
  | zero => rw [Nat.zero_mul, rotl64_zero, Function.iterate_zero_apply]
  | succ n ih => rw [Function.iterate_succ_apply', rho_get, ih, rotl64_rotl64, Nat.succ_mul]

/-- After 64 applications of Rho every lane has gone all the way round. -/
theorem rho_iterate_sixtyFour (A : Lanes) : rho^[64] A = A :=
  lanes_ext fun i => by rw [rho_iterate_get, ← rotl64_mod, Nat.mul_mod_right, rotl64_zero]

/-- Iota takes its constant away again. -/
theorem iota_iota (A : Lanes) (r : Fin 24) : iota (iota A r) r = A := by
  refine lanes_ext fun i => ?_
  rw [iota_eq_xorLanes (iota A r), iota_eq_xorLanes A, xorLanes_get, xorLanes_get, BitVec.xor_assoc, LawfulXor.xor_self,
    xor_zero]

/-- Bit `p` of the five lanes of row `y`. -/
def rowBits (y : Fin 5) (p : Nat) (A : Lanes) (x : Fin 5) : Bool := A[laneIndex x y].getLsbD p

/-- Chi on five bits, one of each lane of a row (42 R92). -/
def chiBits (b : Fin 5 → Bool) (x : Fin 5) : Bool := b x ^^ (!b (x + 1) && b (x + 2))

/-- Chi acts on each row and each bit position alone. -/
theorem rowBits_semiconj {p : Nat} (hp : p < 64) (y : Fin 5) : Function.Semiconj (rowBits y p) chi chiBits := by
  intro A
  funext x
  simp only [rowBits, chiBits, chi_get_laneIndex, BitVec.getLsbD_xor, BitVec.getLsbD_and, BitVec.getLsbD_not, hp,
    decide_true, Bool.true_and]

/-- On five bits Chi has order 4. -/
theorem chiBits_iterate_four : ∀ b, chiBits^[4] b = b := by decide

/-- So it has on lane files. -/
theorem chi_iterate_four (A : Lanes) : chi^[4] A = A := by
  refine lanes_ext fun i => BitVec.eq_of_getLsbD_eq fun p hp => ?_
  have hbits : rowBits (row i) p (chi^[4] A) = rowBits (row i) p A := by
    rw [((rowBits_semiconj hp (row i)).iterate_right 4).eq, chiBits_iterate_four]
  simpa only [rowBits, laneIndex_column_row] using congrFun hbits (column i)

/-- Each of five words is the XOR of the word `m` columns on, rotated by `n`, and the word `m` columns back.  With
`m` = `n` = 1 this says that `D` is `C` (42 R85). -/
def MixesToItself (C : Fin 5 → Word) (m : Fin 5) (n : Nat) : Prop := ∀ x, C x = rotl64 (C (x + m)) n ^^^ C (x - m)

/-- The relation holds at twice the distance: the two terms that come back to column `x` are the same and cancel. -/
theorem MixesToItself.double {C : Fin 5 → Word} {m : Fin 5} {n : Nat} (h : MixesToItself C m n) :
    MixesToItself C (m + m) (n + n) := by
  intro x
  have hon : C (x + m) = rotl64 (C (x + (m + m))) n ^^^ C x := by
    rw [h (x + m), add_assoc, add_sub_cancel_right]
  have hback : C (x - m) = rotl64 (C x) n ^^^ C (x - (m + m)) := by
    rw [h (x - m), sub_add_cancel, sub_sub]
  rw [h x, hon, hback, rotl64_xor, rotl64_rotl64, BitVec.xor_assoc, xor_cancel_left]

/-- Five words with the relation are 0: six doublings make the rotation one by 64, and five bits that are each the XOR
of the two beside it are 0. -/
theorem MixesToItself.eq_zero {C : Fin 5 → Word} (h : MixesToItself C 1 1) (x : Fin 5) : C x = 0 := by
  have h64 : MixesToItself C 4 64 := h.double.double.double.double.double.double
  have hbits : ∀ b : Fin 5 → Bool, (∀ x, b x = (b (x + 4) ^^ b (x - 4))) → ∀ x, b x = false := by decide
  refine BitVec.eq_of_getLsbD_eq fun p _ => ?_
  refine (hbits (fun x => (C x).getLsbD p) (fun x => ?_) x).trans BitVec.getLsbD_zero.symm
  rw [← BitVec.getLsbD_xor, ← rotl64_width (C (x + 4)), ← h64 x]

/-- A State that Theta takes to 0 is 0: its lanes are `D` of their columns, so `C` of five equal lanes is that `D`. -/
theorem eq_zeroLanes_of_theta {E : Lanes} (h : theta E = zeroLanes) : E = zeroLanes := by
  have hlane (i : Fin 25) : E[i] = (thetaD (thetaC E))[column i] := by
    rw [← xor_eq_zero_iff, ← theta_get, h, zeroLanes_get]
  have hparity (x : Fin 5) : (thetaC E)[x] = (thetaD (thetaC E))[x] :=
    (thetaC_get E x).trans (by simp only [hlane, column_laneIndex, LawfulXor.xor_self, zero_xor])
  have hback : ∀ x : Fin 5, x - 1 = x + 4 := by decide
  have hmix : MixesToItself (fun x => (thetaC E)[x]) 1 1 := fun x => by
    simp only [hback]
    exact (hparity x).trans (thetaD_get (thetaC E) x)
  refine lanes_ext fun i => ?_
  rw [hlane, ← hparity, zeroLanes_get]
  exact hmix.eq_zero (column i)

/-- Two States with XOR 0 are equal. -/
theorem eq_of_xorLanes_eq_zeroLanes {A B : Lanes} (h : xorLanes A B = zeroLanes) : A = B :=
  lanes_ext fun i => by rw [← xor_eq_zero_iff, ← xorLanes_get, h, zeroLanes_get]

/-- Theta is injective, being linear. -/
theorem theta_injective : Function.Injective theta := by
  intro A B h
  refine eq_of_xorLanes_eq_zeroLanes (eq_zeroLanes_of_theta ?_)
  rw [theta_xorLanes, h]
  exact lanes_ext fun i => by rw [xorLanes_get, LawfulXor.xor_self, zeroLanes_get]

/-- There are finitely many States. -/
theorem finite_lanes : Finite Lanes :=
  Finite.of_injective (fun (A : Lanes) (i : Fin 25) => A[i]) fun _ _ h => lanes_ext (congrFun h)

/-- An injective function on finitely many States is a bijection (42 R102). -/
theorem theta_bijective : Function.Bijective theta :=
  have := finite_lanes
  Finite.injective_iff_bijective.mp theta_injective

/-! Rho, Pi and Chi have orders 64, 24 and 4, and Iota is an involution (42 R102). -/

theorem rho_bijective : Function.Bijective rho := bijective_of_iterate_succ rho_iterate_sixtyFour
theorem pi_bijective : Function.Bijective pi := bijective_of_iterate_succ pi_iterate_twentyFour
theorem chi_bijective : Function.Bijective chi := bijective_of_iterate_succ chi_iterate_four
theorem iota_bijective (r : Fin 24) : Function.Bijective fun A => iota A r :=
  Function.Involutive.bijective fun A => iota_iota A r

/-- Settles O46: Theta is injective on finitely many States; each of the others has a finite order. -/
theorem transformsAreBijections : Obligations.TransformsAreBijections :=
  ⟨theta_bijective, rho_bijective, pi_bijective, chi_bijective, iota_bijective⟩

/-- A round is a bijection, composed of five (42 R97). -/
theorem roundLanes_bijective (r : Fin 24) : Function.Bijective fun A => roundLanes A r :=
  (iota_bijective r).comp (chi_bijective.comp (pi_bijective.comp (rho_bijective.comp theta_bijective)))

/-- So are any rounds one after the other. -/
theorem foldl_roundLanes_bijective (l : List (Fin 24)) : Function.Bijective fun A => l.foldl roundLanes A := by
  induction l with
  | nil => exact Function.bijective_id
  | cons r l ih => exact ih.comp (roundLanes_bijective r)

/-- The permutation is a bijection (42 R99). -/
theorem permuteLanes_bijective : Function.Bijective permuteLanes := foldl_roundLanes_bijective (List.finRange 24)

/-- Settles O47: bijections compose, and PERMUTE leaves the lanes of the permutation. -/
theorem permutationIsABijection : Obligations.PermutationIsABijection := by
  refine ⟨roundLanes_bijective, permuteLanes_bijective, fun s B => ?_⟩
  obtain ⟨A, hA⟩ := permuteLanes_bijective.surjective B
  exact ⟨A, _, exec_permute (s.setLanes A), by simpa using hA⟩

end Sys2Proof.Machine

/-! PROOFS. The digest: its bytes as numbers, and the lanes read back from the bus (43_digest_extract.md R105 to
R108). -/

namespace Sys2Proof.Machine

/-! ### The digest bytes as numbers -/

/-- Byte `k` of a lane as a number (43 R106). -/
theorem laneByte_toNat (v : Word) (k : Nat) : (laneByte v k).toNat = v.toNat / 2 ^ (8 * k) % 256 := by
  rw [laneByte, BitVec.extractLsb'_toNat, Nat.shiftRight_eq_div_pow]

/-- Digest byte `j` as a number, by its place on the bus (43 R107). -/
theorem digestByte_toNat (v : BitVec 256) (j : Fin 32) :
    (digestByte v j).toNat = v.toNat / 2 ^ (248 - 8 * j.val) % 256 := by
  rw [digestByte, BitVec.extractLsb'_toNat, Nat.shiftRight_eq_div_pow]

theorem digestBytes_get (v : BitVec 256) (j : Fin 32) : (digestBytes v)[j] = digestByte v j :=
  Vector.getElem_ofFn j.isLt

/-- Digest byte `8i + k` is byte `k` of the lane numbered `i` (43 R106). -/
theorem digestByte_extract_laneAt (A : Lanes) {i k : Nat} (hi : i < 4) (hk : k < 8) :
    digestByte (extract A) ⟨8 * i + k, by omega⟩ = laneByte (laneAt A i) k := by
  rw [digestByte_extract A hi hk, laneAt_of_lt]

/-- Settles O48: the bus is the digest of the lanes, whose bytes are those of lanes 0 to 3. -/
theorem extractAnswersTheDigestBytes : Obligations.ExtractAnswersTheDigestBytes := by
  intro s
  refine ⟨_, extract s.lanes, exec_extract256 s, respond_answered .., respond_block .., ?_⟩
  intro i k j hi hk hj
  obtain ⟨j, hlt⟩ := j
  obtain rfl : j = 8 * i + k := hj
  constructor
  · rw [digestBytes_get, digestByte_extract_laneAt _ hi hk, laneByte_toNat]
  · rw [digestBytes_get, digestByte_toNat]

/-! ### The lanes read back from the digest -/

/-- The low `n` bytes of a lane, read as a little-endian number (43 R108). -/
theorem sum_laneByte (v : Word) (n : Nat) :
    ((List.finRange n).map fun k => (laneByte v k.val).toNat * 2 ^ (8 * k.val)).sum = v.toNat % 2 ^ (8 * n) := by
  induction n with
  | zero => simp [Nat.mod_one]
  | succ n ih =>
    have hsplit : v.toNat % 2 ^ (8 * (n + 1)) =
        v.toNat % 2 ^ (8 * n) + 2 ^ (8 * n) * (v.toNat / 2 ^ (8 * n) % 2 ^ 8) := by
      rw [Nat.mul_succ, Nat.pow_add, Nat.mod_mul]
    rw [List.finRange_succ_last, hsplit, ← ih]
    simp [Function.comp_def, laneByte_toNat, Nat.mul_comm]

/-- BSWAP64 reverses the order of the bytes (43 R105). -/
theorem laneByte_bswap64 (v : Word) {k : Nat} (hk : k < 8) : laneByte (bswap64 v) k = laneByte v (7 - k) := by
  have hplace : 8 * k = 56 - 8 * (7 - k) := by omega
  rw [laneByte, hplace, bswap64_byte v (by omega)]

/-- BSWAP64 is its own inverse (43 R105). -/
theorem bswap64_bswap64 (v : Word) : bswap64 (bswap64 v) = v := by
  calc bswap64 (bswap64 v)
      = laneByte v 7 ++ laneByte v 6 ++ laneByte v 5 ++ laneByte v 4 ++
          laneByte v 3 ++ laneByte v 2 ++ laneByte v 1 ++ laneByte v 0 := by
        rw [bswap64]
        simp (disch := decide) only [laneByte_bswap64]
    _ = v.extractLsb' 0 64 := by
        simp (disch := rfl) only [laneByte, BitVec.extractLsb'_append_extractLsb'_eq_extractLsb']
    _ = v := BitVec.extractLsb'_eq_self

/-- Lane `i` as the bus `v` gives it: its 64 bits of the bus with their bytes reversed (43 R105). -/
def digestLane (v : BitVec 256) (i : Nat) : Word := bswap64 (v.extractLsb' (192 - 64 * i) 64)

/-- The digest gives lanes 0 to 3 back (43 R108). -/
theorem digestLane_extract (A : Lanes) {i : Nat} (hi : i < 4) : digestLane (extract A) i = A[i] := by
  rw [digestLane, extract_lane A hi, bswap64_bswap64]

/-- A lane file that holds the lanes of the bus `v` has the digest `v` (43 R108). -/
theorem extract_digestLane (v : BitVec 256) : extract (buildLanes fun i => digestLane v i.val) = v := by
  calc extract (buildLanes fun i => digestLane v i.val)
      = v.extractLsb' 192 64 ++ v.extractLsb' 128 64 ++ v.extractLsb' 64 64 ++ v.extractLsb' 0 64 := by
        simp only [extract, buildLanes_getElem, digestLane, bswap64_bswap64]
    _ = v.extractLsb' 0 256 := by
        simp (disch := rfl) only [BitVec.extractLsb'_append_extractLsb'_eq_extractLsb']
    _ = v := BitVec.extractLsb'_eq_self

/-- The digest and lanes 0 to 3 determine each other (43 R108). -/
theorem extract_eq_iff {A B : Lanes} : extract A = extract B ↔ ∀ i, i < 4 → laneAt A i = laneAt B i := by
  constructor
  · intro h i hi
    have hlt : i < 25 := by omega
    rw [laneAt_of_lt A hlt, laneAt_of_lt B hlt, ← digestLane_extract A hi, h, digestLane_extract B hi]
  · intro h
    refine extract_congr fun k hk => ?_
    have hlane := h k.val (Nat.lt_succ_of_le (of_decide_eq_true hk))
    rwa [laneAt_of_lt _ k.isLt, laneAt_of_lt _ k.isLt] at hlane

/-- Settles O49: a lane is the sum of its bytes, and reading the lanes off the bus is inverse to EXTRACT both ways. -/
theorem extractIsInvertible : Obligations.ExtractIsInvertible := by
  refine ⟨fun A i => ?_, fun A B => extract_eq_iff, fun v => ⟨_, extract_digestLane v⟩⟩
  simp only [digestByte_extract_laneAt A i.isLt (Fin.isLt _), sum_laneByte]
  exact (Nat.mod_eq_of_lt (laneAt A i.val).isLt).symm

end Sys2Proof.Machine

/-! PROOFS. The host's access to the lane file: WRLANE writes the one lane and RDLANE answers it (44_lane_access.md R110,
R111). -/

namespace Sys2Proof.Machine

/-- The lane written, by its number (44 R110). -/
theorem laneAt_setLane_self (s : State) (i : Fin 25) (v : Word) : laneAt (s.setLane i v).lanes i.val = v :=
  (laneAt_of_lt _ i.isLt).trans (setLane_getElem_self s i v)

/-- The lanes not written, by their numbers (44 R110). -/
theorem laneAt_setLane_of_ne (s : State) (i : Fin 25) (v : Word) {j : Nat} (hj : j < 25) (hne : j ≠ i.val) :
    laneAt (s.setLane i v).lanes j = laneAt s.lanes j := by
  rw [laneAt_of_lt _ hj, laneAt_of_lt _ hj]
  exact setLane_getElem_of_ne s i ⟨j, hj⟩ v (Fin.ne_of_val_ne hne)

/-- Settles O51: an index to 24 has its lane take the operand, and the response touches no lane; the others are the
fault entry. -/
theorem wrlaneWritesOneLane : Obligations.WrlaneWritesOneLane := by
  intro k s
  rcases Nat.lt_or_ge 24 k.toNat with hgt | hle
  · exact ⟨_, exec_wrlane_of_gt hgt s, fun hle => by omega, fun _ => raise_faultEntry s .laneRange⟩
  · refine ⟨_, exec_wrlane_of_le hle s, fun _ => ?_, fun hgt => by omega⟩
    rw [State.respond_lanes]
    exact ⟨setLane_respond_answered .., setLane_respond_sameStatus .., laneAt_setLane_self s ⟨k.toNat, _⟩ _,
      fun j hj hne => laneAt_setLane_of_ne s ⟨k.toNat, _⟩ _ hj hne⟩

/-- Settles O52: an index to 24 is answered with its lane and the block kept; the others are the fault entry. -/
theorem rdlaneAnswersTheLane : Obligations.RdlaneAnswersTheLane := by
  intro k s
  rcases Nat.lt_or_ge 24 k.toNat with hgt | hle
  · exact ⟨_, exec_rdlane_of_gt hgt s, fun hle => by omega, fun _ => raise_faultEntry s .laneRange⟩
  · refine ⟨_, exec_rdlane_of_le hle s, fun _ => ?_, fun hgt => by omega⟩
    rw [laneAt_of_lt _ (Nat.lt_succ_of_le hle)]
    exact ⟨respond_answered .., respond_block ..⟩

end Sys2Proof.Machine

/-! PROOFS. Exceptions: the fault entry of a word, the cause by the order of checks, the halted block, and the idle step
(60_exceptions.md). -/

namespace Sys2Proof.Machine

/-- A rejected word is the fault entry `ILLEGAL_CMD`, whatever clause rejects it (60 R125). -/
theorem runWord_of_illegal {c : CmdWord} {e : DecodeError} (h : decode c = .illegal e) (s : State) :
    runWord c s = .next (s.raise .illegalCmd) := by
  rw [runWord, h]
  rfl

/-- A legal word is executed as its command (30 R57). -/
theorem runWord_of_instr {c : CmdWord} {i : Instr} (h : decode c = .instr i) (s : State) :
    runWord c s = exec i s := by
  rw [runWord, h]

/-- Settles O7: the clauses of R58 are what the decoder rejects, and a rejected word is accepted and then faults. -/
theorem illegalWordRaisesIllegalCmd : Obligations.IllegalWordRaisesIllegalCmd := by
  intro s c d rest hready hinputs hclause
  obtain ⟨e, hdecode⟩ := (illegalWordsAreTheThreeClauses c).mpr hclause
  exact ⟨_, (step_command hready hinputs).trans (runWord_of_illegal hdecode _), raise_faultEntry _ _⟩

/-- A command with a valid operand ends with `FAULT` and `CAUSE` as before (60 R126). -/
theorem exec_of_wellFormed_keeps_fault {i : Instr} (h : i.WellFormed) (s : State) :
    ∃ t, exec i s = .next t ∧ t.fault = s.fault ∧ t.cause = s.cause := by
  obtain ⟨t, ht⟩ := exec_next i s
  obtain ⟨-, -, hvalid, -⟩ := frameOfEveryCommand i s t ht
  exact ⟨t, ht, hvalid h⟩

/-- An accepted word is the fault entry of its cause, and without one keeps `FAULT` and `CAUSE` (60 R127, R128). -/
theorem runWord_by_cause (c : CmdWord) (s : State) :
    ∃ t, runWord c s = .next t ∧ (causeOfWord c = .noFault → t.fault = s.fault ∧ t.cause = s.cause) ∧
      (causeOfWord c ≠ .noFault → FaultEntry s t (causeOfWord c)) := by
  cases hdecode : decode c with
  | illegal e =>
    rw [runWord_of_illegal hdecode, causeOfWord_of_illegal hdecode]
    exact ⟨_, rfl, nofun, fun _ => raise_faultEntry s _⟩
  | instr i =>
    rw [runWord_of_instr hdecode, causeOfWord_of_instr hdecode]
    by_cases hwf : i.WellFormed
    · obtain ⟨t, ht, hkept⟩ := exec_of_wellFormed_keeps_fault hwf s
      exact ⟨t, ht, fun _ => hkept, fun hne => absurd (operandCause_of_wellFormed hwf) hne⟩
    · obtain ⟨hne, hraise⟩ := exec_of_invalid_operand hwf
      exact ⟨_, hraise s, fun heq => absurd heq hne, fun _ => raise_faultEntry s _⟩

/-- Settles O8: acceptance leaves `FAULT` and `CAUSE` alone, and an accepted word ends by its cause. -/
theorem firstFailingCheckGivesTheCause : Obligations.FirstFailingCheckGivesTheCause := by
  intro s c d rest hready hinputs
  rw [step_command hready hinputs]
  exact runWord_by_cause c (s.taking d rest)

/-- While `FAULT` is 1, `cmd_ready` is 0 (20 R46). -/
theorem cmdReady_of_fault {s : State} (h : s.fault = true) : s.cmdReady = false := by
  simp [State.cmdReady, h]

/-- Settles O10: a halted block is not ready, so of the steps that answer a next state idling and reset remain. -/
theorem haltedBlockAcceptsNoCommand : Obligations.HaltedBlockAcceptsNoCommand := by
  constructor
  · intro s c d rest hfault hinputs
    rw [step, takeEvent_command_blocked (cmdReady_of_fault hfault) hinputs, hfault]
    rfl
  · intro s t hfault hstep
    rcases step_next_cases hstep with ⟨-, rfl⟩ | ⟨e, rest, hinputs, hreset, rfl⟩ | ⟨-, -, -, -, hready, -⟩
    · exact .inl rfl
    · exact .inr ⟨State.applyReset_fault _, e, rest, hinputs, hreset⟩
    · exact absurd hready (by simp [cmdReady_of_fault hfault])

/-- Settles O24: the fault entry sets `FAULT` and `CAUSE` and ends the command, so `BUSY` is 0 in `STATUS`. -/
theorem statusAfterAFault : Obligations.StatusAfterAFault := by
  refine ⟨⟨rfl, rfl, rfl, rfl⟩, ?_⟩
  intro s t c ⟨hfault, hcause, _, _, _, hbusy, _⟩
  refine ⟨?_, cmdReady_of_fault hfault⟩
  rw [status_toNat, hfault, hcause, hbusy, Bool.toNat_true, Bool.toNat_false]
  omega

/-- Settles O13: with no event pending the step is the idle one. -/
theorem idleBlockHoldsItsState : Obligations.IdleBlockHoldsItsState := by
  intro s hinputs
  rw [step, takeEvent_nil hinputs]

end Sys2Proof.Machine

/-! PROOFS. Reset at a command boundary and during a command (70_reset_and_hazards.md R140, R141). -/

namespace Sys2Proof.Machine

/-- A reset event, at a boundary or during a command, is one step to the reset state (70 R140, R141). -/
theorem step_reset {s : State} {e : HostEvent} {rest : List HostEvent} (h : s.inputs = e :: rest)
    (he : e = .reset ∨ ∃ c d, e = .abandoned c d) :
    step s = .next { s with inputs := rest }.applyReset := by
  rw [step, takeEvent_reset h he]

/-- After a reset `STATUS` is 0: it is made of `BUSY`, `FAULT` and `CAUSE` alone (10 R17, R22). -/
@[simp] theorem State.applyReset_status (s : State) : s.applyReset.status = 0 := by
  rw [State.status, applyReset_cause, applyReset_fault, applyReset_busy]
  rfl

/-- After a reset the block is ready for a command (20 R46). -/
@[simp] theorem State.applyReset_cmdReady (s : State) : s.applyReset.cmdReady = true :=
  (cmdReady_iff _).mpr ⟨applyReset_busy s, applyReset_fault s⟩

/-- After a reset each lane holds its free value for the new reset count (10 R22; log 1). -/
theorem State.applyReset_lanes_get (s : State) (i : Fin 25) :
    s.applyReset.lanes[i] = Config.resetLane (s.resets + 1) i := by
  rw [applyReset_lanes]
  exact resetLanes_getElem _ i.val i.isLt

/-- Settles O11: the step is `applyReset` on the remaining events, which sets the registers and keeps the responses. -/
theorem resetClearsTheBlock : Obligations.ResetClearsTheBlock := by
  intro s e rest hinputs hreset
  exact ⟨_, step_reset hinputs hreset, State.applyReset_fault _, State.applyReset_cause _, State.applyReset_rnd _,
    State.applyReset_busy _, State.applyReset_status _, State.applyReset_cmdReady _, State.applyReset_inputs _,
    State.applyReset_responses _, State.applyReset_lanes_get _⟩

end Sys2Proof.Machine
